-- ==== Sys2Proof/Word.lean ====
section
/-! DEFINITION. The word types of the SPI ADC engine.

Bit 0 is the least significant bit of every value (R12). -/

namespace Sys2Proof

/-- A host register value, `REG_WIDTH` = 32 bits (R8). -/
abbrev Word := BitVec 32

/-- A byte: the unit of an SPI exchange, `SPI_WORD` = 8 bits (R8), and of a rendering. -/
abbrev Byte := BitVec 8

/-- The 41-bit transaction word `T` of R50: `T[40]` WE, `T[39:32]` OFF, `T[31:0]` WDATA. -/
abbrev TWord := BitVec 41

end Sys2Proof
end

