-- ==== Sys2Proof/Syntax.lean ====
section
/-! DEFINITION. The host transactions of SAE-v1: one constructor per row of the opcode map
(30_encoding.md section 4). -/

namespace Sys2Proof

/-- The SRC operand of FORMAT (R54, R55): bit 0 of the command word. -/
inductive FmtSrc where
  /-- SRC = 0: render FMT_IN. -/
  | fmtIn
  /-- SRC = 1: render VALUE. -/
  | value
  deriving DecidableEq, Repr

/-- One host transaction of the block (R50). A read carries no data; a register write carries the
whole WDATA, whose fields its meaning takes (R52, R55); a command carries its operands (R54); an
access to an unmapped offset carries the offset bits that its row leaves free. -/
inductive Instr where
  -- Format R: register reads (R51)
  | rdCtrl
  | rdStatus
  | rdTxdata
  | rdRxdata
  | rdCmd
  | rdValue
  | rdFmtIn
  | rdFmtData
  /-- offsets 0x20 to 0x3C; `k` is OFF[4:2] -/
  | rdUnmapped20 (k : BitVec 3)
  /-- offsets 0x40 to 0x7C; `k` is OFF[5:2] -/
  | rdUnmapped40 (k : BitVec 4)
  /-- offsets 0x80 to 0xFC; `k` is OFF[6:2] -/
  | rdUnmapped80 (k : BitVec 5)
  -- Format W: register writes (R52)
  | wrCtrl (wdata : Word)
  | wrStatus (wdata : Word)
  | tx (wdata : Word)
  | wrRxdata (wdata : Word)
  | wrValue (wdata : Word)
  | wrFmtIn (wdata : Word)
  | wrFmtData (wdata : Word)
  | wrUnmapped20 (k : BitVec 3) (wdata : Word)
  | wrUnmapped40 (k : BitVec 4) (wdata : Word)
  | wrUnmapped80 (k : BitVec 5) (wdata : Word)
  -- Format C: commands (R53, R54)
  | nop
  | csAssert
  | csDeassert
  /-- CHANNEL is 8 bits wide, so that a channel above 7 can be seen and rejected (R55) -/
  | sample (channel : Byte)
  | format (src : FmtSrc)
  | clrerr
  /-- a command word that is no command (R57, R99) -/
  | cmdIllegal (word : Word)
  deriving DecidableEq, Repr

end Sys2Proof
end

