-- ==== Sys2Proof/Decode.lean ====
section
/-! DEFINITION. Decoding of the 41-bit transaction word (30_encoding.md R50 to R57), its encoder,
and the opcode map of 30_encoding.md section 4 as a table of masks. -/

namespace Sys2Proof

/-- Why a transaction word has no row: the names of the decoder's refusals. -/
inductive DecodeReject where
  /-- `OFF[1:0]` is not 0: the transaction is not admitted (R33, R58). -/
  | offsetNotAligned
  deriving DecidableEq, Repr

/-! ### The fields of a transaction word (R50) -/

/-- WE: 1 for a write, 0 for a read. -/
def tWe (t : TWord) : Bool := t.getLsbD 40

/-- OFF: the byte offset in the window. -/
def tOff (t : TWord) : Byte := t.extractLsb' 32 8

/-- WDATA: the written value. -/
def tWdata (t : TWord) : Word := t.extractLsb' 0 32

/-- The transaction word with the fields WE, OFF and WDATA. -/
def mkT (we : Bool) (off : Byte) (wdata : Word) : TWord := BitVec.ofBool we ++ off ++ wdata

/-! ### Decoding, in the order of R56 -/

/-- An access at an aligned offset of 0x20 or more: which of the three unmapped rows it is. -/
def decodeUnmapped (we : Bool) (off : Byte) (wdata : Word) : Instr :=
  if off.getLsbD 7 then
    if we then .wrUnmapped80 (off.extractLsb' 2 5) wdata else .rdUnmapped80 (off.extractLsb' 2 5)
  else if off.getLsbD 6 then
    if we then .wrUnmapped40 (off.extractLsb' 2 4) wdata else .rdUnmapped40 (off.extractLsb' 2 4)
  else
    if we then .wrUnmapped20 (off.extractLsb' 2 3) wdata else .rdUnmapped20 (off.extractLsb' 2 3)

/-- A read of a register (R51): OFF selects it. The last register is the one at 0x1C. -/
def decodeRead (off : Byte) : Instr :=
  if off = 0x00 then .rdCtrl
  else if off = 0x04 then .rdStatus
  else if off = 0x08 then .rdTxdata
  else if off = 0x0C then .rdRxdata
  else if off = 0x10 then .rdCmd
  else if off = 0x14 then .rdValue
  else if off = 0x18 then .rdFmtIn
  else .rdFmtData

/-- A write of CMD (R53): the command whose OP it is, if the reserved ARG bits of that OP are 0
(R54), else CMD_ILLEGAL (R57). -/
def decodeCommand (w : Word) : Instr :=
  let op := w.extractLsb' 24 8
  let arg := w.extractLsb' 0 24
  if op = 0x00 ∧ arg = 0 then .nop
  else if op = 0x01 ∧ arg = 0 then .csAssert
  else if op = 0x02 ∧ arg = 0 then .csDeassert
  else if op = 0x03 ∧ arg.extractLsb' 8 16 = 0 then .sample (arg.extractLsb' 0 8)
  else if op = 0x04 ∧ arg.extractLsb' 1 23 = 0 then
    .format (if arg.getLsbD 0 then .value else .fmtIn)
  else if op = 0x05 ∧ arg = 0 then .clrerr
  else .cmdIllegal w

/-- A write of a register (R52, R53): OFF selects it. The last register is the one at 0x1C. -/
def decodeWrite (off : Byte) (w : Word) : Instr :=
  if off = 0x10 then decodeCommand w
  else if off = 0x00 then .wrCtrl w
  else if off = 0x04 then .wrStatus w
  else if off = 0x08 then .tx w
  else if off = 0x0C then .wrRxdata w
  else if off = 0x14 then .wrValue w
  else if off = 0x18 then .wrFmtIn w
  else .wrFmtData w

/-- Decoding of a transaction word (R56). It reads no state. -/
def decode (t : TWord) : Except DecodeReject Instr :=
  if (tOff t).extractLsb' 0 2 ≠ 0 then .error .offsetNotAligned
  else if 0x20 ≤ (tOff t).toNat then .ok (decodeUnmapped (tWe t) (tOff t) (tWdata t))
  else if tWe t then .ok (decodeWrite (tOff t) (tWdata t))
  else .ok (decodeRead (tOff t))

/-! ### Encoding -/

/-- The word of a command: OP in bits 31:24, ARG in bits 23:0 (R53). -/
def commandWord (op : Byte) (arg : BitVec 24) : Word := op ++ arg

/-- The offset of an unmapped access, from the bits its row leaves free. -/
def offUnmapped20 (k : BitVec 3) : Byte := 0b001#3 ++ k ++ 0#2
def offUnmapped40 (k : BitVec 4) : Byte := 0b01#2 ++ k ++ 0#2
def offUnmapped80 (k : BitVec 5) : Byte := 0b1#1 ++ k ++ 0#2

/-- The transaction word of an instruction; a read's WDATA is 0 (R50). -/
def encode : Instr → TWord
  | .rdCtrl => mkT false 0x00 0
  | .rdStatus => mkT false 0x04 0
  | .rdTxdata => mkT false 0x08 0
  | .rdRxdata => mkT false 0x0C 0
  | .rdCmd => mkT false 0x10 0
  | .rdValue => mkT false 0x14 0
  | .rdFmtIn => mkT false 0x18 0
  | .rdFmtData => mkT false 0x1C 0
  | .rdUnmapped20 k => mkT false (offUnmapped20 k) 0
  | .rdUnmapped40 k => mkT false (offUnmapped40 k) 0
  | .rdUnmapped80 k => mkT false (offUnmapped80 k) 0
  | .wrCtrl w => mkT true 0x00 w
  | .wrStatus w => mkT true 0x04 w
  | .tx w => mkT true 0x08 w
  | .wrRxdata w => mkT true 0x0C w
  | .wrValue w => mkT true 0x14 w
  | .wrFmtIn w => mkT true 0x18 w
  | .wrFmtData w => mkT true 0x1C w
  | .wrUnmapped20 k w => mkT true (offUnmapped20 k) w
  | .wrUnmapped40 k w => mkT true (offUnmapped40 k) w
  | .wrUnmapped80 k w => mkT true (offUnmapped80 k) w
  | .nop => mkT true 0x10 (commandWord 0x00 0)
  | .csAssert => mkT true 0x10 (commandWord 0x01 0)
  | .csDeassert => mkT true 0x10 (commandWord 0x02 0)
  | .sample c => mkT true 0x10 (commandWord 0x03 (0#16 ++ c))
  | .format src => mkT true 0x10 (commandWord 0x04 (match src with | .fmtIn => 0 | .value => 1))
  | .clrerr => mkT true 0x10 (commandWord 0x05 0)
  | .cmdIllegal w => mkT true 0x10 w

/-! ### The opcode map as a table (R50, 30_encoding.md section 4) -/

/-- A row of the opcode map: a transaction `T` is that row's operation when
`(T & mask) = match` (R50). -/
structure OpcodeRow where
  mnemonic : String
  pattern : TWord
  mask : TWord
  deriving DecidableEq, Repr

/-- The row's mask and match select the word. -/
def OpcodeRow.covers (r : OpcodeRow) (t : TWord) : Bool := (t &&& r.mask) == r.pattern

/-- The rows of format R. -/
def readRows : List OpcodeRow :=
  [⟨"RD_CTRL", 0x00000000000, 0x1FF00000000⟩, ⟨"RD_STATUS", 0x00400000000, 0x1FF00000000⟩,
   ⟨"RD_TXDATA", 0x00800000000, 0x1FF00000000⟩, ⟨"RD_RXDATA", 0x00C00000000, 0x1FF00000000⟩,
   ⟨"RD_CMD", 0x01000000000, 0x1FF00000000⟩, ⟨"RD_VALUE", 0x01400000000, 0x1FF00000000⟩,
   ⟨"RD_FMT_IN", 0x01800000000, 0x1FF00000000⟩, ⟨"RD_FMT_DATA", 0x01C00000000, 0x1FF00000000⟩,
   ⟨"RD_UNMAPPED_20", 0x02000000000, 0x1E300000000⟩,
   ⟨"RD_UNMAPPED_40", 0x04000000000, 0x1C300000000⟩,
   ⟨"RD_UNMAPPED_80", 0x08000000000, 0x18300000000⟩]

/-- The rows of format W. -/
def writeRows : List OpcodeRow :=
  [⟨"WR_CTRL", 0x10000000000, 0x1FF00000000⟩, ⟨"WR_STATUS", 0x10400000000, 0x1FF00000000⟩,
   ⟨"TX", 0x10800000000, 0x1FF00000000⟩, ⟨"WR_RXDATA", 0x10C00000000, 0x1FF00000000⟩,
   ⟨"WR_VALUE", 0x11400000000, 0x1FF00000000⟩, ⟨"WR_FMT_IN", 0x11800000000, 0x1FF00000000⟩,
   ⟨"WR_FMT_DATA", 0x11C00000000, 0x1FF00000000⟩,
   ⟨"WR_UNMAPPED_20", 0x12000000000, 0x1E300000000⟩,
   ⟨"WR_UNMAPPED_40", 0x14000000000, 0x1C300000000⟩,
   ⟨"WR_UNMAPPED_80", 0x18000000000, 0x18300000000⟩]

/-- The rows of format C but CMD_ILLEGAL. -/
def commandRows : List OpcodeRow :=
  [⟨"NOP", 0x11000000000, 0x1FFFFFFFFFF⟩, ⟨"CS_ASSERT", 0x11001000000, 0x1FFFFFFFFFF⟩,
   ⟨"CS_DEASSERT", 0x11002000000, 0x1FFFFFFFFFF⟩, ⟨"SAMPLE", 0x11003000000, 0x1FFFFFFFF00⟩,
   ⟨"FORMAT", 0x11004000000, 0x1FFFFFFFFFE⟩, ⟨"CLRERR", 0x11005000000, 0x1FFFFFFFFFF⟩]

/-- The row of lowest priority: a write of CMD that matches no other C row. -/
def illegalRow : OpcodeRow := ⟨"CMD_ILLEGAL", 0x11000000000, 0x1FF00000000⟩

/-- The rows of the opcode map that are disjoint: all but CMD_ILLEGAL. -/
def disjointRows : List OpcodeRow := readRows ++ writeRows ++ commandRows

/-- The opcode map, 28 rows, CMD_ILLEGAL last. -/
def opcodeTable : List OpcodeRow := disjointRows ++ [illegalRow]

/-- The mnemonic of an instruction's row. -/
def Instr.mnemonic : Instr → String
  | .rdCtrl => "RD_CTRL"
  | .rdStatus => "RD_STATUS"
  | .rdTxdata => "RD_TXDATA"
  | .rdRxdata => "RD_RXDATA"
  | .rdCmd => "RD_CMD"
  | .rdValue => "RD_VALUE"
  | .rdFmtIn => "RD_FMT_IN"
  | .rdFmtData => "RD_FMT_DATA"
  | .rdUnmapped20 _ => "RD_UNMAPPED_20"
  | .rdUnmapped40 _ => "RD_UNMAPPED_40"
  | .rdUnmapped80 _ => "RD_UNMAPPED_80"
  | .wrCtrl _ => "WR_CTRL"
  | .wrStatus _ => "WR_STATUS"
  | .tx _ => "TX"
  | .wrRxdata _ => "WR_RXDATA"
  | .wrValue _ => "WR_VALUE"
  | .wrFmtIn _ => "WR_FMT_IN"
  | .wrFmtData _ => "WR_FMT_DATA"
  | .wrUnmapped20 _ _ => "WR_UNMAPPED_20"
  | .wrUnmapped40 _ _ => "WR_UNMAPPED_40"
  | .wrUnmapped80 _ _ => "WR_UNMAPPED_80"
  | .nop => "NOP"
  | .csAssert => "CS_ASSERT"
  | .csDeassert => "CS_DEASSERT"
  | .sample _ => "SAMPLE"
  | .format _ => "FORMAT"
  | .clrerr => "CLRERR"
  | .cmdIllegal _ => "CMD_ILLEGAL"

/-! ### The host's numbering of a table row -/

/-- The transaction word that a number of `nbits` bits stands for. The table counts a row's 41 bits
in whole bytes; the bits above bit 40 are that padding and no bits of `T` (log entry 7). -/
def tableWord (nbits w : Nat) : TWord := BitVec.ofNat 41 (w % 2 ^ nbits)

/-- The instruction that the decoder reads from a table row's bits. -/
def decodeTableWord (nbits w : Nat) : Option Instr :=
  match decode (tableWord nbits w) with
  | .ok i => some i
  | .error _ => none

end Sys2Proof
end

