-- ==== Sys2Proof/Machine/State.lean ====
section
/-! DEFINITION. The state of the SPI ADC engine (10_state.md R17), the environment's inputs and the
observation of a run (R9 to R11), and how a step can stop. -/

namespace Sys2Proof.Machine

/-- The phase of the ACQ sequencer, `S.seq` (R17). -/
inductive Phase where
  | idle
  | cslo
  | x1
  | x2
  | x3
  | cshi
  | scale
  deriving DecidableEq, Repr

/-- An event on the serial pins (R27). -/
inductive SpiEvent where
  /-- CS_N falls. -/
  | csLow
  /-- CS_N rises. -/
  | csHigh
  /-- One exchange: the byte shifted out on MOSI and the byte shifted in from MISO. -/
  | xchg (mosi miso : Byte)
  deriving DecidableEq, Repr

/-- The four errors of the block (R109). -/
inductive ErrorCode where
  | illegalCommand
  | busy
  | badState
  | invalidChannel
  deriving DecidableEq, Repr

/-- An access on the host bus (R13): `MemRead(addr, size)` or `MemWrite(addr, size, wdata)`. -/
structure BusAccess where
  /-- host address -/
  addr : Nat
  /-- width in bytes -/
  size : Nat
  /-- a write, not a read -/
  write : Bool
  /-- the written value -/
  wdata : Word
  deriving DecidableEq, Repr

/-- What the host asks of the block: a 32-bit register transaction, by its transaction word (R50),
or an access of any width at a host address (R13, R33, R34). -/
inductive Request where
  | reg (t : TWord)
  | bus (a : BusAccess)
  deriving DecidableEq, Repr

/-- One turn of the environment (R9, R49): the host performs one transaction, or the engine may take
its enabled step, for which the Slave has the byte `miso` ready (R11). -/
inductive Input where
  | host (r : Request)
  | engine (miso : Byte)
  deriving DecidableEq, Repr

/-- The state of a run. The fields from `cpol` to `trace` are the record `S` of R17, by its names;
the last three are the model's own (log entries 1, 3 and 6). -/
structure State where
  /-- `S.cpol`: SCLK idle level, CTRL.CPOL -/
  cpol : Bool
  /-- `S.cpha`: SCLK sampling phase, CTRL.CPHA -/
  cpha : Bool
  /-- `S.clkdiv`: SCLK divider, CTRL.CLKDIV -/
  clkdiv : Byte
  /-- `S.cs`: chip-select asserted (`CS_N` low), STATUS.CSA -/
  cs : Bool
  /-- `S.tc`: transfer-complete flag of a host exchange, STATUS.TC -/
  tc : Bool
  /-- `S.rx`: byte received by the last host exchange, RXDATA.RXBYTE -/
  rx : Byte
  /-- `S.xfer`: the MOSI byte of the host exchange in flight, if there is one -/
  xfer : Option Byte
  /-- `S.seq`: phase of the ACQ sequencer -/
  seq : Phase
  /-- `S.ch`: channel of the sample in flight -/
  ch : BitVec 3
  /-- `S.hi`: high nibble of the raw word being assembled -/
  hi : BitVec 4
  /-- `S.lo`: low byte of the raw word being assembled -/
  lo : Byte
  /-- `S.raw`: RawConversionWord of the last sample -/
  raw : BitVec 12
  /-- `S.value`: last Sample in milli-units, VALUE -/
  value : Word
  /-- `S.sdone`: a sample has completed since the last SAMPLE was accepted, STATUS.SDONE -/
  sdone : Bool
  /-- `S.fmt_in`: formatter input register, FMT_IN -/
  fmtIn : Word
  /-- `S.fact`: formatter active, STATUS.FACT -/
  fact : Bool
  /-- `S.fpend`: bytes of the current rendering not yet moved to FMT_DATA -/
  fpend : List Byte
  /-- `S.fvalid`: FMT_DATA holds a byte, STATUS.FVALID and FMT_DATA.VALID -/
  fvalid : Bool
  /-- `S.fdata`: byte held in FMT_DATA, FMT_DATA.BYTE -/
  fdata : Byte
  /-- `S.flast`: the byte held is the last of the rendering, FMT_DATA.LAST -/
  flast : Bool
  /-- `S.e_illop`: sticky error IllegalCommand, STATUS.ERR_ILLOP -/
  eIllop : Bool
  /-- `S.e_busy`: sticky error Busy, STATUS.ERR_BUSY -/
  eBusy : Bool
  /-- `S.e_state`: sticky error BadState, STATUS.ERR_STATE -/
  eState : Bool
  /-- `S.e_invch`: sticky error InvalidChannel, STATUS.ERR_INVCH -/
  eInvch : Bool
  /-- `S.trace`: the pin events driven since reset, oldest first (R27) -/
  trace : List SpiEvent
  /-- the values the host has read, oldest first: observation (a) of R10 -/
  reads : List Word
  /-- the coming turns of host and engine, next first -/
  inputs : List Input
  /-- how many turns the engine has taken after `inputs` ran out -/
  draws : Nat
  deriving DecidableEq, Repr

/-- The block never stops with a fault: it has no traps (R108), and its four errors are rejections
after which it goes on (R118). So no instruction raises one, and there is no constructor. -/
inductive Fault where
  deriving DecidableEq, Repr

/-- Why the model gives a host request no step. -/
inductive Refusal where
  /-- An instruction that has no meaning in the model yet. Raised by none: every arm has its meaning.
  Safe: the model stops where the block goes on. -/
  | notModelled (mnemonic : String)
  /-- A host request that is not an aligned 32-bit access (R33, R58): "a model refuses it". Raised by
  admission and by decoding, before any instruction. Safe: the spec gives it no effect. -/
  | notAdmitted
  /-- A host address outside `BASE` to `BASE + 0xFF` (R34): "a model of the block has no step". Raised
  by admission, before any instruction. Safe: the access is not the block's. -/
  | outsideWindow
  deriving DecidableEq, Repr

/-- What a step answers. -/
abbrev Result := Host.Outcome State Fault Refusal

/-- The state after reset: the reset column of R17, as R124 applies it. Nothing has been read, and
the environment's turns are none until a run is set up (log entries 1, 3, 6 and 7). -/
def State.reset : State where
  cpol := false
  cpha := false
  clkdiv := 0x00
  cs := false
  tc := false
  rx := 0x00
  xfer := none
  seq := .idle
  ch := 0
  hi := 0
  lo := 0
  raw := 0
  value := 0x00000000
  sdone := false
  fmtIn := 0x00000000
  fact := false
  fpend := []
  fvalid := false
  fdata := 0x00
  flast := false
  eIllop := false
  eBusy := false
  eState := false
  eInvch := false
  trace := []
  reads := []
  inputs := []
  draws := 0

end Sys2Proof.Machine
end

