-- ==== Sys2Proof/Machine/Flags.lean ====
section
/-! DEFINITION. BUSY, the register words that the host reads, and the sticky error flags. -/

namespace Sys2Proof.Machine

/-- BUSY (R18): a unit holds the shared sequencer. Derived, not stored. -/
def State.busy (s : State) : Bool := s.xfer.isSome || decide (s.seq ≠ .idle) || s.fact

/-- The block is quiescent (R135): no operation is in flight and FMT_DATA holds no byte. -/
def State.quiescent (s : State) : Bool := !s.busy && !s.fvalid

/-- CTRL as a read returns it (R63). -/
def State.ctrlWord (s : State) : Word :=
  0#16 ++ s.clkdiv ++ 0#6 ++ BitVec.ofBool s.cpha ++ BitVec.ofBool s.cpol

/-- STATUS as a read returns it (R21, R65). -/
def State.statusWord (s : State) : Word :=
  0#20 ++ BitVec.ofBool s.eInvch ++ BitVec.ofBool s.eState ++ BitVec.ofBool s.eBusy
    ++ BitVec.ofBool s.eIllop ++ 0#2 ++ BitVec.ofBool s.fact ++ BitVec.ofBool s.fvalid
    ++ BitVec.ofBool s.sdone ++ BitVec.ofBool s.cs ++ BitVec.ofBool s.busy ++ BitVec.ofBool s.tc

/-- RXDATA as a read returns it (R23). -/
def State.rxWord (s : State) : Word := s.rx.setWidth 32

/-- FMT_DATA as a read returns it (R28). -/
def State.fmtDataWord (s : State) : Word :=
  0#22 ++ BitVec.ofBool s.flast ++ BitVec.ofBool s.fvalid ++ s.fdata

/-- The STATUS bit that records an error (R109). -/
def ErrorCode.statusBit : ErrorCode → Nat
  | .illegalCommand => 8
  | .busy => 9
  | .badState => 10
  | .invalidChannel => 11

/-- The sticky flag of an error. -/
def State.errorFlag (s : State) : ErrorCode → Bool
  | .illegalCommand => s.eIllop
  | .busy => s.eBusy
  | .badState => s.eState
  | .invalidChannel => s.eInvch

/-- Set the sticky flag of an error and nothing else (R108, R118). -/
def State.setError (e : ErrorCode) (s : State) : State :=
  match e with
  | .illegalCommand => { s with eIllop := true }
  | .busy => { s with eBusy := true }
  | .badState => { s with eState := true }
  | .invalidChannel => { s with eInvch := true }

/-- Clear the four sticky flags (R98). -/
def State.clearErrors (s : State) : State :=
  { s with eIllop := false, eBusy := false, eState := false, eInvch := false }

end Sys2Proof.Machine
end

