-- ==== Sys2Proof/Config.lean ====
section
/-! DEFINITION. What is fixed for the block: the parameters of 00_scope.md R8, and the
values that the spec leaves open, as constants without a body. -/

namespace Sys2Proof.Config

/-- `WINDOW`: the size in bytes of the register window (R8, R19). -/
def window : Nat := 256

/-- `CHANNELS` (R8): channel numbers 0 to 7 are legal. -/
def channels : Nat := 8

/-- `CTRL_BYTE` (R8): the first MOSI byte of a sample. -/
def ctrlByte : Byte := 0x06

/-- `DUMMY_BYTE` (R8): the third MOSI byte of a sample. -/
def dummyByte : Byte := 0x00

/-- `REF_SCALE_MILLI` (R8): the reference scale 3.3 in thousandths. -/
def refScaleMilli : Nat := 3300

/-- `MULT` (R8): the display multiplier. -/
def mult : Nat := 100

/-- `FULL_SCALE` (R8): the full-scale counts of the 12-bit ADC. -/
def fullScale : Nat := 4096

/-- The number of milli-units in one display unit, 10 to the power `FRAC_DIGITS` = 3 (R8, R90). -/
def milli : Nat := 1000

/-- `DIGIT_CAP` (R8): the digits that the formatter's digit buffer holds. -/
def digitCap : Nat := 10

/-- OPEN (R8, R41): which 256-byte block of the host address space holds the window. -/
opaque baseBlock : Nat

/-- `BASE`, the host address of offset 0x00: OPEN, a multiple of 256 (R8, R32). -/
def base : Nat := window * baseBlock

/-- OPEN (R11): the byte that the Slave answers in the `n`-th exchange for which the run lists no
answer. A free value: nothing constrains it (log entry 3). -/
opaque freeMiso : Nat → Byte

end Sys2Proof.Config
end

