-- ==== Sys2Proof/Machine/Operands.lean ====
section
/-! DEFINITION. Operands taken from WDATA (R55), admission of a host request (R33, R34), byte lanes
(R35), and the value computations of the ACQ and FMT units (R77, R81, R82, R90, R91). -/

namespace Sys2Proof.Machine

/-! ### Operands of register writes (R55) -/

/-- TXBYTE of a TXDATA write; bits 31:8 are ignored (R22). -/
def txByte (wdata : Word) : Byte := wdata.extractLsb' 0 8

/-- CPOL of a CTRL write (R20). -/
def ctrlCpol (wdata : Word) : Bool := wdata.getLsbD 0

/-- CPHA of a CTRL write (R20). -/
def ctrlCpha (wdata : Word) : Bool := wdata.getLsbD 1

/-- CLKDIV of a CTRL write (R20). -/
def ctrlClkdiv (wdata : Word) : Byte := wdata.extractLsb' 8 8

/-! ### Admission (R13, R32 to R34) -/

/-- The offset of a host address in the window, if it lies there. -/
def windowOffset (addr : Nat) : Option Nat :=
  if Config.base ≤ addr ∧ addr < Config.base + Config.window then some (addr - Config.base)
  else none

/-- The transaction word of a bus access: an address outside the window is not the block's (R34); a
width other than 32 bits or an unaligned offset is not admitted (R33); the rest is the register
transaction at `addr - BASE` (R13), a read with WDATA 0 (R50). -/
def admitBus (a : BusAccess) : Except Refusal TWord :=
  match windowOffset a.addr with
  | none => .error .outsideWindow
  | some off =>
    if a.size = 4 ∧ off % 4 = 0 then
      .ok (BitVec.ofBool a.write ++ BitVec.ofNat 8 off ++ (if a.write then a.wdata else 0))
    else .error .notAdmitted

/-- The transaction word of a host request. -/
def Request.toWord : Request → Except Refusal TWord
  | .reg t => .ok t
  | .bus a => admitBus a

/-- Byte lane `k` (0 to 3) of a register: bits `[8k+7:8k]` (R35). -/
def byteLane (k : Nat) (v : Word) : Byte := v.extractLsb' (8 * k) 8

/-- The register whose byte lanes 0 to 3 are the arguments (R35). -/
def ofByteLanes (b0 b1 b2 b3 : Byte) : Word := b3 ++ b2 ++ b1 ++ b0

/-! ### The ACQ unit -/

/-- The channel byte of phase X2: `trunc_8(zext_8(ch) << 6)` (R77). -/
def channelByte (ch : BitVec 3) : Byte := ch.setWidth 8 <<< 6

/-- The high nibble kept from the byte received in phase X2: `s[3:0]` (R77). -/
def highNibble (s : Byte) : BitVec 4 := s.extractLsb' 0 4

/-- The raw conversion word `{hi, lo}` (R80, R81). -/
def rawWord (hi : BitVec 4) (lo : Byte) : BitVec 12 := hi ++ lo

/-- The Sample in milli-units: multiply first, then divide once, truncating (R80, R82). -/
def scaleRaw (raw : BitVec 12) : Word :=
  BitVec.ofNat 32 (raw.toNat * Config.refScaleMilli * Config.mult / Config.fullScale)

/-! ### The FMT unit -/

/-- The digit buffer of R91 after the extraction of `n`'s digits, least significant first, as far as
its capacity goes. -/
def digitBuffer : (capacity : Nat) → (n : Nat) → List Byte
  | 0, _ => []
  | capacity + 1, n =>
    BitVec.ofNat 8 (0x30 + n % 10) :: (if n / 10 = 0 then [] else digitBuffer capacity (n / 10))

/-- `dec(n)` (R91): the digit buffer emitted reversed. -/
def dec (n : Nat) : List Byte := (digitBuffer Config.digitCap n).reverse

/-- `render(x)` (R90) of a signed count of milli-units, given by its 32-bit pattern. -/
def render (x : Word) : List Byte :=
  (if x.toInt < 0 then [0x2D] else [])
    ++ dec (x.toInt.natAbs / Config.milli) ++ [0x2E] ++ dec (x.toInt.natAbs % Config.milli)

end Sys2Proof.Machine
end

