-- ==== Sys2Proof/Machine/Ops.lean ====
section
/-! DEFINITION. The operations that several meanings share: a read's answer, the rejection of a
transaction (the block's only exception, R108), the Busy check, and the drive of chip-select.

The block has no return from an exception: nothing is saved and no handler runs (R118). -/

namespace Sys2Proof.Machine

/-- The host reads the value `v` (R10, R14). -/
def State.returned (v : Word) (s : State) : State := { s with reads := s.reads ++ [v] }

/-- A host read that answers `v` and has no other effect. -/
def answer (v : Word) (s : State) : Result := .next (s.returned v)

/-- `raise E` (R13, R108): the transaction sets the flag of `E` and has no other effect, and the
block goes on. -/
def raise (e : ErrorCode) (s : State) : Result := .next (s.setError e)

/-- `if BUSY: raise Busy` before an operation whose effect is `t` (R111). -/
def unlessBusy (s t : State) : Result := if s.busy then raise .busy s else .next t

/-- Append an event to the SPI trace, `trace += e` (R13, R27). -/
def State.drive (e : SpiEvent) (s : State) : State := { s with trace := s.trace ++ [e] }

/-- Chip-select becomes active: CS_N falls (R68, R75). -/
def State.lowerCsN (s : State) : State := { s.drive .csLow with cs := true }

/-- Chip-select becomes inactive: CS_N rises (R69, R79). -/
def State.raiseCsN (s : State) : State := { s.drive .csHigh with cs := false }

end Sys2Proof.Machine
end

