-- ==== Sys2Proof/Machine/Acq.lean ====
section
/-! DEFINITION. The ACQ unit's transactions (41_adc_sample.md R74 and R85). -/

namespace Sys2Proof.Machine

/-- SAMPLE (R74), with the checks in the order of R114. -/
def execSample (channel : Byte) (s : State) : Result :=
  if s.busy then raise .busy s
  else if s.cs then raise .badState s
  else if Config.channels ≤ channel.toNat then raise .invalidChannel s
  else .next { s with ch := channel.extractLsb' 0 3, sdone := false, seq := .cslo }

/-- RD_VALUE (R85). -/
def execRdValue (s : State) : Result := answer s.value s

end Sys2Proof.Machine
end

