-- ==== Sys2Proof/Machine/Control.lean ====
section
/-! DEFINITION. The control commands and the accesses with a fixed result
(43_control.md R97 to R107). -/

namespace Sys2Proof.Machine

/-- A write that the block ignores (R40, R59). -/
def ignored (s : State) : Result := .next s

/-- NOP (R97): no effect; accepted while BUSY. -/
def execNop (s : State) : Result := ignored s

/-- CLRERR (R98): accepted while BUSY. -/
def execClrerr (s : State) : Result := .next s.clearErrors

/-- CMD_ILLEGAL (R99, R110): raised whether or not BUSY. -/
def execCmdIllegal (_word : Word) (s : State) : Result := raise .illegalCommand s

/-- RD_TXDATA (R100). -/
def execRdTxdata (s : State) : Result := answer 0x00000000 s

/-- RD_CMD (R101). -/
def execRdCmd (s : State) : Result := answer 0x00000000 s

/-- WR_STATUS (R102). -/
def execWrStatus (_wdata : Word) (s : State) : Result := ignored s

/-- WR_RXDATA (R103). -/
def execWrRxdata (_wdata : Word) (s : State) : Result := ignored s

/-- WR_VALUE (R104). -/
def execWrValue (_wdata : Word) (s : State) : Result := ignored s

/-- WR_FMT_DATA (R105). -/
def execWrFmtData (_wdata : Word) (s : State) : Result := ignored s

/-- RD_UNMAPPED at offsets 0x20 to 0x3C (R106). -/
def execRdUnmapped20 (_k : BitVec 3) (s : State) : Result := answer 0x00000000 s

/-- RD_UNMAPPED at offsets 0x40 to 0x7C (R106). -/
def execRdUnmapped40 (_k : BitVec 4) (s : State) : Result := answer 0x00000000 s

/-- RD_UNMAPPED at offsets 0x80 to 0xFC (R106). -/
def execRdUnmapped80 (_k : BitVec 5) (s : State) : Result := answer 0x00000000 s

/-- WR_UNMAPPED at offsets 0x20 to 0x3C (R107). -/
def execWrUnmapped20 (_k : BitVec 3) (_wdata : Word) (s : State) : Result := ignored s

/-- WR_UNMAPPED at offsets 0x40 to 0x7C (R107). -/
def execWrUnmapped40 (_k : BitVec 4) (_wdata : Word) (s : State) : Result := ignored s

/-- WR_UNMAPPED at offsets 0x80 to 0xFC (R107). -/
def execWrUnmapped80 (_k : BitVec 5) (_wdata : Word) (s : State) : Result := ignored s

end Sys2Proof.Machine
end

