-- ==== Sys2Proof/Machine/Fmt.lean ====
section
/-! DEFINITION. The FMT unit's transactions (42_formatter.md R87 to R89 and R94). -/

namespace Sys2Proof.Machine

/-- WR_FMT_IN (R87): accepted while BUSY. -/
def execWrFmtIn (wdata : Word) (s : State) : Result := .next { s with fmtIn := wdata }

/-- RD_FMT_IN (R88). -/
def execRdFmtIn (s : State) : Result := answer s.fmtIn s

/-- The value that FORMAT renders (R89). -/
def formatInput (src : FmtSrc) (s : State) : Word :=
  match src with
  | .fmtIn => s.fmtIn
  | .value => s.value

/-- FORMAT (R89): the input is latched here, as the bytes of its rendering. -/
def execFormat (src : FmtSrc) (s : State) : Result :=
  unlessBusy s { s with fpend := render (formatInput src s), fact := true }

/-- The state after a read of FMT_DATA: a held byte is popped, and the LAST one ends the rendering
(R94). -/
def State.popFmtData (s : State) : State :=
  if s.fvalid then
    { s with fact := s.fact && !s.flast, fvalid := false, fdata := 0x00, flast := false }
  else s

/-- RD_FMT_DATA (R94). -/
def execRdFmtData (s : State) : Result := answer s.fmtDataWord s.popFmtData

end Sys2Proof.Machine
end

