-- ==== Sys2Proof/Machine/Spi.lean ====
section
/-! DEFINITION. The SPI unit's transactions: configuration, status, exchange, chip-select
(40_spi_transfer.md R63 to R69). -/

namespace Sys2Proof.Machine

/-- RD_CTRL (R63). -/
def execRdCtrl (s : State) : Result := answer s.ctrlWord s

/-- WR_CTRL (R64): bits 7:2 and 31:16 of the written value are ignored. -/
def execWrCtrl (wdata : Word) (s : State) : Result :=
  unlessBusy s
    { s with cpol := ctrlCpol wdata, cpha := ctrlCpha wdata, clkdiv := ctrlClkdiv wdata }

/-- RD_STATUS (R65): answers TC as it was before the read, and clears it. -/
def execRdStatus (s : State) : Result := answer s.statusWord { s with tc := false }

/-- TX (R66): the exchange completes at a later engine step; CS is not checked (R72). -/
def execTx (wdata : Word) (s : State) : Result :=
  unlessBusy s { s with xfer := some (txByte wdata), tc := false }

/-- RD_RXDATA (R67). -/
def execRdRxdata (s : State) : Result := answer s.rxWord s

/-- CS_ASSERT (R68): no event when chip-select is asserted already. -/
def execCsAssert (s : State) : Result := unlessBusy s (if s.cs then s else s.lowerCsN)

/-- CS_DEASSERT (R69): no event when chip-select is deasserted already. -/
def execCsDeassert (s : State) : Result := unlessBusy s (if s.cs then s.raiseCsN else s)

end Sys2Proof.Machine
end

