-- ==== Sys2Proof/Machine/Dispatch.lean ====
section
/-! DEFINITION. The meaning of each host transaction, one arm per row of the opcode map. -/

namespace Sys2Proof.Machine

open Sys2Proof

def exec (i : Instr) (s : State) : Host.Outcome State Fault Refusal :=
  match i with
  | .rdCtrl => Sys2Proof.Machine.execRdCtrl s
  | .rdStatus => Sys2Proof.Machine.execRdStatus s
  | .rdTxdata => Sys2Proof.Machine.execRdTxdata s
  | .rdRxdata => Sys2Proof.Machine.execRdRxdata s
  | .rdCmd => Sys2Proof.Machine.execRdCmd s
  | .rdValue => Sys2Proof.Machine.execRdValue s
  | .rdFmtIn => Sys2Proof.Machine.execRdFmtIn s
  | .rdFmtData => Sys2Proof.Machine.execRdFmtData s
  | .rdUnmapped20 k => Sys2Proof.Machine.execRdUnmapped20 k s
  | .rdUnmapped40 k => Sys2Proof.Machine.execRdUnmapped40 k s
  | .rdUnmapped80 k => Sys2Proof.Machine.execRdUnmapped80 k s
  | .wrCtrl wdata => Sys2Proof.Machine.execWrCtrl wdata s
  | .wrStatus wdata => Sys2Proof.Machine.execWrStatus wdata s
  | .tx wdata => Sys2Proof.Machine.execTx wdata s
  | .wrRxdata wdata => Sys2Proof.Machine.execWrRxdata wdata s
  | .wrValue wdata => Sys2Proof.Machine.execWrValue wdata s
  | .wrFmtIn wdata => Sys2Proof.Machine.execWrFmtIn wdata s
  | .wrFmtData wdata => Sys2Proof.Machine.execWrFmtData wdata s
  | .wrUnmapped20 k wdata => Sys2Proof.Machine.execWrUnmapped20 k wdata s
  | .wrUnmapped40 k wdata => Sys2Proof.Machine.execWrUnmapped40 k wdata s
  | .wrUnmapped80 k wdata => Sys2Proof.Machine.execWrUnmapped80 k wdata s
  | .nop => Sys2Proof.Machine.execNop s
  | .csAssert => Sys2Proof.Machine.execCsAssert s
  | .csDeassert => Sys2Proof.Machine.execCsDeassert s
  | .sample channel => Sys2Proof.Machine.execSample channel s
  | .format src => Sys2Proof.Machine.execFormat src s
  | .clrerr => Sys2Proof.Machine.execClrerr s
  | .cmdIllegal word => Sys2Proof.Machine.execCmdIllegal word s

end Sys2Proof.Machine
end

