-- ==== Sys2Proof/Machine/Engine.lean ====
section
/-! DEFINITION. The engine's internal steps: XDONE (R70), the ACQ phases (R75 to R80) and EMIT
(R93). `miso` is the byte that the Slave answers an exchange with (R11); a step without an exchange
does not use it. -/

namespace Sys2Proof.Machine

/-- XDONE (R70): completes the host exchange of the byte `mosi`. -/
def xdone (mosi miso : Byte) (s : State) : State :=
  { s.drive (.xchg mosi miso) with rx := miso, tc := true, xfer := none }

/-- Phase CSLO (R75). -/
def phaseCslo (s : State) : State := { s.lowerCsN with seq := .x1 }

/-- Phase X1 (R76): the received byte is discarded. -/
def phaseX1 (miso : Byte) (s : State) : State :=
  { s.drive (.xchg Config.ctrlByte miso) with seq := .x2 }

/-- Phase X2 (R77). -/
def phaseX2 (miso : Byte) (s : State) : State :=
  { s.drive (.xchg (channelByte s.ch) miso) with hi := highNibble miso, seq := .x3 }

/-- Phase X3 (R78). -/
def phaseX3 (miso : Byte) (s : State) : State :=
  { s.drive (.xchg Config.dummyByte miso) with lo := miso, seq := .cshi }

/-- Phase CSHI (R79). -/
def phaseCshi (s : State) : State := { s.raiseCsN with seq := .scale }

/-- Phase SCALE (R80). -/
def phaseScale (s : State) : State :=
  { s with
    raw := rawWord s.hi s.lo
    value := scaleRaw (rawWord s.hi s.lo)
    sdone := true
    seq := .idle }

/-- EMIT (R93): moves the byte `b` into FMT_DATA and leaves `rest` pending. -/
def emitByte (b : Byte) (rest : List Byte) (s : State) : State :=
  { s with fdata := b, flast := rest.isEmpty, fvalid := true, fpend := rest }

/-- The step of the FMT unit, where it is enabled (R93). -/
def emitStep (s : State) : Option State :=
  if s.fact && !s.fvalid then
    match s.fpend with
    | [] => none
    | b :: rest => some (emitByte b rest s)
  else none

/-- The step of the ACQ unit, where it is enabled (R75 to R80). -/
def acqStep (miso : Byte) (s : State) : Option State :=
  match s.seq with
  | .idle => none
  | .cslo => some (phaseCslo s)
  | .x1 => some (phaseX1 miso s)
  | .x2 => some (phaseX2 miso s)
  | .x3 => some (phaseX3 miso s)
  | .cshi => some (phaseCshi s)
  | .scale => some (phaseScale s)

/-- The step of the SPI unit, where it is enabled (R70). -/
def xdoneStep (miso : Byte) (s : State) : Option State :=
  s.xfer.map fun mosi => xdone mosi miso s

/-- The engine's enabled step, if there is one. In the states that a run reaches at most one unit's
step is enabled (R73); elsewhere the order is SPI, ACQ, FMT (log entry 5). -/
def engineStep (miso : Byte) (s : State) : Option State :=
  (xdoneStep miso s).or ((acqStep miso s).or (emitStep s))

/-- A turn of the engine: its enabled step, or nothing where none is enabled (R9, log entry 4). -/
def engineTurn (miso : Byte) (s : State) : State := (engineStep miso s).getD s

end Sys2Proof.Machine
end

