-- ==== Sys2Proof/Machine/Agents.lean ====
section
/-! DEFINITION. The turns of the agents (R9, R43, R49): what the host's request does, and which agent
moves next. -/

namespace Sys2Proof.Machine

/-- The host's turn: the request is admitted (R33), decoded (R56) and performed, in one step (R38). -/
def hostTurn (r : Request) (s : State) : Result :=
  match r.toWord with
  | .error refusal => .refused refusal
  | .ok t =>
    match decode t with
    | .error .offsetNotAligned => .refused .notAdmitted
    | .ok i => exec i s

/-- One turn. The environment's next input says whose it is. Where the inputs have run out the host is
silent, and the engine takes its enabled steps with free answers of the Slave (log entries 2, 3). -/
def agentTurn (s : State) : Result :=
  match s.inputs with
  | .host r :: rest => hostTurn r { s with inputs := rest }
  | .engine miso :: rest => .next (engineTurn miso { s with inputs := rest })
  | [] => .next (engineTurn (Config.freeMiso s.draws) { s with draws := s.draws + 1 })

/-- The state in which the next turn is the host's, with the transaction of a table row's bits. -/
def State.withRequest (nbits w : Nat) (s : State) : State :=
  { s with inputs := .host (.reg (tableWord nbits w)) :: s.inputs }

end Sys2Proof.Machine
end

