-- ==== Sys2Proof/Machine/Step.lean ====
section
/-! DEFINITION. The step of the machine, and where it takes its next transaction from. -/

namespace Sys2Proof.Machine

/-- One step: one turn of one agent (R9). -/
def step : State → Host.Outcome State Fault Refusal := agentTurn

/-- The state whose very next step performs the transaction of a table row's bits: the host has it
ready (log entry 7). -/
def State.withFetchWord (s : State) (nbits w : Nat) : State := s.withRequest nbits w

end Sys2Proof.Machine
end

