-- ==== Sys2Proof/Machine/HostProgram.lean ====
section
/-! DEFINITION. Host programs (30_encoding.md R61, R62; 70_reset_and_hazards.md R135): the host's own
statements, which only sequence the transactions of the block, the expansion of the
pseudo-instructions, and the end of a run. They are no part of the block: a `Driver` holds the host's
side of a program and the block it drives, and uses the block's host and engine turns. -/

namespace Sys2Proof.Machine

/-- A statement of a host program (R61). Labels are resolved to the index of the statement that
follows them (log entry 10). -/
inductive HostStmt where
  /-- a transaction, and the host variable that receives the value of a read: `... -> hN` -/
  | access (r : Request) (dst : Option Nat)
  /-- `BITZ hN, mask, label`: branch if `hN & mask = 0` -/
  | bitz (h : Nat) (mask : Word) (target : Nat)
  /-- `BITNZ hN, mask, label`: branch if `hN & mask != 0` -/
  | bitnz (h : Nat) (mask : Word) (target : Nat)
  /-- `JMP label` -/
  | jmp (target : Nat)
  /-- `SINK hN`: hand byte `hN[7:0]` to the external sink -/
  | sink (h : Nat)
  /-- `SINK imm8` -/
  | sinkImm (b : Byte)
  /-- `HALT` -/
  | halt
  deriving DecidableEq, Repr

/-- The host with its program, and the block. -/
structure Driver where
  prog : List HostStmt
  /-- index of the next statement -/
  pc : Nat
  /-- the host variables that hold a value, by rising number -/
  vars : List (Nat × Word)
  /-- the host's output list `OUT` -/
  out : List Byte
  /-- the host has executed `HALT` -/
  halted : Bool
  block : State
  deriving DecidableEq, Repr

/-- Why a host program cannot go on. None of these is a stop of the block (log entry 10). -/
inductive HostStop where
  /-- a statement uses a host variable that has received no value -/
  | unsetVariable (h : Nat)
  /-- there is no next statement -/
  | pastEnd
  /-- the model gives the requested access no step (R33, R34) -/
  | refused (r : Refusal)
  deriving DecidableEq, Repr

/-- Give host variable `h` the value `v`, keeping the list in rising order. -/
def setVar (h : Nat) (v : Word) : List (Nat × Word) → List (Nat × Word)
  | [] => [(h, v)]
  | (k, w) :: rest =>
    if h < k then (h, v) :: (k, w) :: rest
    else if h = k then (h, v) :: rest
    else (k, w) :: setVar h v rest

/-- The value of host variable `h`, if it has one. -/
def getVar (h : Nat) : List (Nat × Word) → Option Word
  | [] => none
  | (k, w) :: rest => if h = k then some w else getVar h rest

/-- The host variables after a transaction that leaves the block in state `t`: the destination
receives the last value read. -/
def receive (dst : Option Nat) (t : State) (vars : List (Nat × Word)) : List (Nat × Word) :=
  match dst, t.reads.getLast? with
  | some h, some v => setVar h v vars
  | _, _ => vars

/-- A transaction of the program. -/
def Driver.doAccess (r : Request) (dst : Option Nat) (d : Driver) : Except HostStop Driver :=
  match hostTurn r d.block with
  | .next t => .ok { d with block := t, vars := receive dst t d.vars, pc := d.pc + 1 }
  | .refused e => .error (.refused e)

/-- A branch that is taken if `taken` holds of the variable's value. -/
def Driver.branch (h : Nat) (taken : Word → Bool) (target : Nat) (d : Driver) :
    Except HostStop Driver :=
  match getVar h d.vars with
  | some v => .ok { d with pc := if taken v then target else d.pc + 1 }
  | none => .error (.unsetVariable h)

/-- One statement of the program (R61); nothing once the host has halted. -/
def Driver.hostStep (d : Driver) : Except HostStop Driver :=
  if d.halted then .ok d
  else
    match d.prog[d.pc]? with
    | none => .error .pastEnd
    | some (.access r dst) => d.doAccess r dst
    | some (.bitz h mask target) => d.branch h (fun v => v &&& mask == 0) target
    | some (.bitnz h mask target) => d.branch h (fun v => v &&& mask != 0) target
    | some (.jmp target) => .ok { d with pc := target }
    | some (.sink h) =>
      match getVar h d.vars with
      | some v => .ok { d with out := d.out ++ [v.extractLsb' 0 8], pc := d.pc + 1 }
      | none => .error (.unsetVariable h)
    | some (.sinkImm b) => .ok { d with out := d.out ++ [b], pc := d.pc + 1 }
    | some .halt => .ok { d with halted := true }

/-- A turn of a driven run: the host's, or the engine's with the Slave's answer. -/
inductive Turn where
  | host
  | engine (miso : Byte)
  deriving DecidableEq, Repr

/-- One turn of a driven run. -/
def Driver.turn (d : Driver) : Turn → Except HostStop Driver
  | .host => d.hostStep
  | .engine miso => .ok { d with block := engineTurn miso d.block }

/-- A driven run under a schedule. -/
def Driver.run (d : Driver) : List Turn → Except HostStop Driver
  | [] => .ok d
  | u :: rest =>
    match d.turn u with
    | .ok d' => d'.run rest
    | .error e => .error e

/-- A program about to run on the block right after reset. -/
def Driver.start (prog : List HostStmt) : Driver :=
  { prog, pc := 0, vars := [], out := [], halted := false, block := State.reset }

/-- The run has ended (R135): the host has executed `HALT` and the block is quiescent. -/
def Driver.ended (d : Driver) : Bool := d.halted && d.block.quiescent

/-- What an observer of a run sees (R10, R135). -/
structure Observation where
  trace : List SpiEvent
  reads : List Word
  out : List Byte
  deriving DecidableEq, Repr

/-- The observation of a driven run so far. -/
def Driver.observation (d : Driver) : Observation :=
  { trace := d.block.trace, reads := d.block.reads, out := d.out }

/-! ### Operand forms of the assembler (R61) -/

/-- A read whose value host variable `h` keeps. -/
def asmRead (i : Instr) (h : Nat) : HostStmt := .access (.reg (encode i)) (some h)

/-- A write. -/
def asmWrite (i : Instr) : HostStmt := .access (.reg (encode i)) none

/-- `WR_CTRL cpol, cpha, div`. -/
def asmWrCtrl (cpol cpha : Bool) (div : Byte) : HostStmt :=
  asmWrite (.wrCtrl (0#16 ++ div ++ 0#6 ++ BitVec.ofBool cpha ++ BitVec.ofBool cpol))

/-- `TX b`. -/
def asmTx (b : Byte) : HostStmt := asmWrite (.tx (b.setWidth 32))

/-- `WR_FMT_IN v`: a negative decimal means its two's-complement pattern. -/
def asmWrFmtIn (v : Int) : HostStmt := asmWrite (.wrFmtIn (BitVec.ofInt 32 v))

/-- `RD_UNMAPPED off -> hN`. -/
def asmRdUnmapped (off : Byte) (h : Nat) : HostStmt := .access (.reg (mkT false off 0)) (some h)

/-- `WR_UNMAPPED off, v`. -/
def asmWrUnmapped (off : Byte) (v : Word) : HostStmt := .access (.reg (mkT true off v)) none

/-- `CMD w`: a raw command word. -/
def asmCmd (w : Word) : HostStmt := .access (.reg (mkT true 0x10 w)) none

/-! ### Expansion of the pseudo-instructions (R62)

`l` is the index at which the expansion stands, `t` the host variable that it reads into. -/

/-- `WAIT_TC -> t`. -/
def waitTc (l t : Nat) : List HostStmt := [asmRead .rdStatus t, .bitz t 0x001 l]

/-- `WAIT_IDLE -> t`. -/
def waitIdle (l t : Nat) : List HostStmt := [asmRead .rdStatus t, .bitnz t 0x002 l]

/-- `XFER b -> h`, with `t` the variable of its wait. -/
def xferByte (l t : Nat) (b : Byte) (h : Nat) : List HostStmt :=
  asmTx b :: waitTc (l + 1) t ++ [asmRead .rdRxdata h]

/-- `SAMPLE_WAIT ch -> h`, with `t` the variable of its wait. -/
def sampleWait (l t : Nat) (ch : Byte) (h : Nat) : List HostStmt :=
  asmWrite (.sample ch) :: waitIdle (l + 1) t ++ [asmRead .rdValue h]

/-- `DRAIN`. -/
def drain (l t : Nat) : List HostStmt :=
  [asmRead .rdFmtData t, .bitz t 0x100 l, .sink t, .bitz t 0x200 l]

/-- `FORMAT_OUT src`. -/
def formatOut (l t : Nat) (src : FmtSrc) : List HostStmt :=
  asmWrite (.format src) :: drain (l + 1) t

end Sys2Proof.Machine
end

