-- ==== Sys2Proof/Machine/Pins.lean ====
section
/-! DEFINITION. The serial pins, as far as the spec states them (R31, R36, R71, R125), and the
informative length of an exchange (R134). No step depends on them. -/

namespace Sys2Proof.Machine

/-- CS_N, active low: `not S.cs` (R31). -/
def State.csN (s : State) : Bool := !s.cs

/-- The level at which SCLK idles: CPOL (R31, R71). -/
def State.sclkIdle (s : State) : Bool := s.cpol

/-- The levels of the output pins. -/
structure Pins where
  csN : Bool
  sclk : Bool
  mosi : Bool
  deriving DecidableEq, Repr

/-- The output pins during and after reset (R125). -/
def resetPins : Pins := { csN := true, sclk := false, mosi := false }

/-- The levels of MOSI in an exchange, in order of time: most significant bit first (R36). -/
def mosiBits (b : Byte) : List Bool :=
  [b.getLsbD 7, b.getLsbD 6, b.getLsbD 5, b.getLsbD 4, b.getLsbD 3, b.getLsbD 2, b.getLsbD 1,
    b.getLsbD 0]

/-- One more level of MISO is shifted in behind the bits received so far (R36). -/
def shiftInBit (received : Byte) (level : Bool) : Byte :=
  received.extractLsb' 0 7 ++ BitVec.ofBool level

/-- The byte received from the levels of MISO, in order of time: the first becomes bit 7 (R36). -/
def shiftIn (levels : List Bool) : Byte := levels.foldl shiftInBit 0

/-- Which SCLK edge after a bit is driven samples it, counted from 1: the first with CPHA = 0, the
second with CPHA = 1 (R20; R71 as general knowledge, log entry 13: PRESUMED). -/
def State.samplingEdge (s : State) : Nat := if s.cpha then 2 else 1

/-- The block clock cycles of half an SCLK period, informative (R20). -/
def State.halfPeriodCycles (s : State) : Nat := s.clkdiv.toNat + 1

/-- The block clock cycles of an exchange, informative: 8 SCLK periods (R71, R134). -/
def State.exchangeCycles (s : State) : Nat := 8 * (2 * s.halfPeriodCycles)

end Sys2Proof.Machine
end

