-- ==== Sys2Proof/WellFormed.lean ====
section
/-! DEFINITION. Which terms of `Instr` are transactions of the block. Every operand but one has
exactly the width of its field, so only the word of `cmdIllegal` needs a check: the spec's other
name for it, "any WDATA not matched above" (30_encoding.md section 4), must hold. -/

namespace Sys2Proof

/-- The reserved ARG bits of the command opcodes 0x00 to 0x05, which must be 0 (R54). -/
def reservedArg (op : Byte) : BitVec 24 :=
  if op = 0x03 then 0xFFFF00 else if op = 0x04 then 0xFFFFFE else 0xFFFFFF

/-- A command word is illegal when its OP is 0x06 to 0xFF, or when a reserved ARG bit is 1 (R57). -/
def illegalCommand (w : Word) : Bool :=
  0x05 < (w.extractLsb' 24 8).toNat
    || (w.extractLsb' 0 24 &&& reservedArg (w.extractLsb' 24 8)) != 0

/-- The instruction is a transaction of the block. -/
def WellFormed : Instr → Bool
  | .cmdIllegal w => illegalCommand w
  | .rdCtrl | .rdStatus | .rdTxdata | .rdRxdata | .rdCmd | .rdValue | .rdFmtIn | .rdFmtData => true
  | .rdUnmapped20 _ | .rdUnmapped40 _ | .rdUnmapped80 _ => true
  | .wrCtrl _ | .wrStatus _ | .tx _ | .wrRxdata _ | .wrValue _ | .wrFmtIn _ | .wrFmtData _ => true
  | .wrUnmapped20 _ _ | .wrUnmapped40 _ _ | .wrUnmapped80 _ _ => true
  | .nop | .csAssert | .csDeassert | .sample _ | .format _ | .clrerr => true

end Sys2Proof
end

