-- ==== Sys2Proof/Safety.lean ====
section
/-! DEFINITION. The terms in which claims about runs are stated: what the host may ask for, the
invariant of the block, and when two states differ only in what an observer cannot see. -/

namespace Sys2Proof.Machine

/-! ### Runs -/

/-- The host's request is one that the block performs (R33, R34, R58). -/
def Admitted (r : Request) : Prop := ∃ t i, r.toWord = .ok t ∧ decode t = .ok i

/-- The transaction that the host's request is, if the block performs it. -/
def Request.instr (r : Request) : Option Instr :=
  match r.toWord with
  | .error _ => none
  | .ok t =>
    match decode t with
    | .error _ => none
    | .ok i => some i

/-- Every request among the inputs is one that the block performs. -/
def InputsAdmitted (inputs : List Input) : Prop := ∀ r, Input.host r ∈ inputs → Admitted r

/-- The Slave's answers that the inputs hold, in order: one for each turn of the engine. -/
def engineAnswers : List Input → List Byte
  | [] => []
  | .engine miso :: rest => miso :: engineAnswers rest
  | .host _ :: rest => engineAnswers rest

/-- The next step is a read of FMT_DATA. -/
def State.readsFmtData (s : State) : Bool :=
  match s.inputs with
  | .host r :: _ => r.instr == some .rdFmtData
  | .engine _ :: _ | [] => false

/-- The values with VALID set (R28) that the host's reads of FMT_DATA return along `k` steps. -/
def formattedWords : (k : Nat) → State → List Word
  | 0, _ => []
  | k + 1, s =>
    match step s with
    | .next t =>
      (if s.readsFmtData then (t.reads.drop s.reads.length).filter (·.getLsbD 8) else [])
        ++ formattedWords k t
    | .refused _ => []

/-! ### The trace -/

/-- Chip-select after one more event, where the event is one that the pin allows (R27): CS_N falls
only when it is high and rises only when it is low. -/
def chipSelectAfter : Option Bool → SpiEvent → Option Bool
  | some false, .csLow => some true
  | some true, .csHigh => some false
  | some cs, .xchg _ _ => some cs
  | _, _ => none

/-- Chip-select after a trace, if the trace's CS events alternate from the reset level on. -/
def traceChipSelect (trace : List SpiEvent) : Option Bool :=
  trace.foldl chipSelectAfter (some false)

/-! ### The invariant -/

/-- The bytes of the rendering in flight that the host has not read yet: the one held in FMT_DATA, then
the pending ones. -/
def State.undelivered (s : State) : List Byte := (if s.fvalid then [s.fdata] else []) ++ s.fpend

/-- What holds in every state that a run from reset reaches. -/
structure Inv (s : State) : Prop where
  /-- an exchange in flight has the sequencer to itself, and has not completed (R18, R66, R73) -/
  exchange_alone : s.xfer.isSome → s.seq = .idle ∧ s.fact = false ∧ s.tc = false
  /-- a sample in flight has the sequencer to itself, and has not completed (R18, R21, R74) -/
  sample_alone : s.seq ≠ .idle → s.fact = false ∧ s.sdone = false
  /-- chip-select outside the bracket of a sample in flight is deasserted (R74, R75, R79) -/
  sample_unselected : s.seq = .cslo ∨ s.seq = .scale → s.cs = false
  /-- chip-select inside the bracket of a sample in flight is asserted (R75, R79) -/
  sample_selected : s.seq = .x1 ∨ s.seq = .x2 ∨ s.seq = .x3 ∨ s.seq = .cshi → s.cs = true
  /-- VALUE is the scaled raw word (R80) -/
  value_of_raw : s.value = scaleRaw s.raw
  /-- VALUE is a Sample (R25, R83) -/
  value_range : s.value.toNat ≤ 329919
  /-- a rendering is active exactly while a byte of it has not been read (R89, R93, R94) -/
  active_iff_undelivered : s.fact = true ↔ s.undelivered ≠ []
  /-- without a held byte FMT_DATA reads 0 (R28) -/
  nothing_held : s.fvalid = false → s.fdata = 0x00 ∧ s.flast = false
  /-- the held byte is marked LAST exactly when none is pending (R93) -/
  held_last : s.fvalid = true → (s.flast = true ↔ s.fpend = [])
  /-- what has not been read is the end of a rendering (R30, R89) -/
  undelivered_of_rendering : s.fact = true → ∃ x, s.undelivered <:+ render x
  /-- at most 12 bytes are pending (R17, R96) -/
  pending_length : s.fpend.length ≤ 12
  /-- the trace brackets its exchanges, and chip-select is as its events leave it (R27) -/
  trace_bracketed : traceChipSelect s.trace = some s.cs

/-! ### What an observer cannot see -/

/-- The states agree on all but bit 2 of the hidden channel (R29, R86). -/
def AgreeButChannelBit2 (s t : State) : Prop :=
  t = { s with ch := t.ch } ∧ t.ch.extractLsb' 0 2 = s.ch.extractLsb' 0 2

/-- The states agree on all but the CTRL fields (R20, R71). -/
def AgreeButCtrl (s t : State) : Prop :=
  t = { s with cpol := t.cpol, cpha := t.cpha, clkdiv := t.clkdiv }

/-- The states agree on all but the CTRL fields and the values that the host has read. -/
def AgreeButCtrlAndReads (s t : State) : Prop :=
  t = { s with cpol := t.cpol, cpha := t.cpha, clkdiv := t.clkdiv, reads := t.reads }

end Sys2Proof.Machine
end

