-- ==== Sys2Proof/Certificates/Slice0/Obligations.lean ====
section
/-! DEFINITION. The statements about the model, from the numbered rules of spec/. -/

open Sys2Proof Sys2Proof.Machine

/-! ### Reset -/

/-- R124: after reset every field of the record has the value in R17's reset column, and the registers
read as 0 (STATUS, whose read clears TC, among them). -/
def Obligations.ResetFieldsAndRegisters : Prop :=
  (State.reset.cpol = false ∧ State.reset.cpha = false ∧ State.reset.clkdiv = 0
    ∧ State.reset.cs = false ∧ State.reset.tc = false ∧ State.reset.rx = 0
    ∧ State.reset.xfer = none ∧ State.reset.seq = .idle ∧ State.reset.ch = 0
    ∧ State.reset.hi = 0 ∧ State.reset.lo = 0 ∧ State.reset.raw = 0 ∧ State.reset.value = 0
    ∧ State.reset.sdone = false ∧ State.reset.fmtIn = 0 ∧ State.reset.fact = false
    ∧ State.reset.fpend = [] ∧ State.reset.fvalid = false ∧ State.reset.fdata = 0
    ∧ State.reset.flast = false ∧ State.reset.eIllop = false ∧ State.reset.eBusy = false
    ∧ State.reset.eState = false ∧ State.reset.eInvch = false ∧ State.reset.trace = [])
  ∧ ∀ i ∈ [Instr.rdCtrl, .rdStatus, .rdRxdata, .rdValue, .rdFmtIn, .rdFmtData],
      exec i State.reset = .next { State.reset with reads := [0x00000000] }

/-- R125's first sentence, and R31: the output pins at reset, and the reset state's CS_N and SCLK idle
level are those. -/
def Obligations.ResetPinLevels : Prop :=
  resetPins.csN = true ∧ resetPins.sclk = false ∧ resetPins.mosi = false
  ∧ State.reset.csN = resetPins.csN ∧ State.reset.sclkIdle = resetPins.sclk

/-! ### Decoding and encoding -/

/-- Words written out from the masks and fields of 30_encoding.md section 4, of every family, decode
to what they stand for. -/
def Obligations.TableWordsDecode : Prop :=
  decodeTableWord 48 0x00400000000 = some .rdStatus
  ∧ decodeTableWord 48 0x01C00000000 = some .rdFmtData
  ∧ decodeTableWord 48 0x03C00000000 = some (.rdUnmapped20 7)
  ∧ decodeTableWord 48 0x04400000000 = some (.rdUnmapped40 1)
  ∧ decodeTableWord 48 0x1000000FF03 = some (.wrCtrl 0x0000FF03)
  ∧ decodeTableWord 48 0x108000000A5 = some (.tx 0x000000A5)
  ∧ decodeTableWord 48 0x118FFFFF254 = some (.wrFmtIn 0xFFFFF254)
  ∧ decodeTableWord 48 0x18001000000 = some (.wrUnmapped80 0 0x01000000)
  ∧ decodeTableWord 48 0x11000000000 = some .nop
  ∧ decodeTableWord 48 0x11002000000 = some .csDeassert
  ∧ decodeTableWord 48 0x11003000009 = some (.sample 9)
  ∧ decodeTableWord 48 0x11004000001 = some (.format .value)
  ∧ decodeTableWord 48 0x11005000001 = some (.cmdIllegal 0x05000001)
  ∧ decodeTableWord 48 0x11003000100 = some (.cmdIllegal 0x03000100)
  ∧ decodeTableWord 48 0x00200000000 = none

/-- Every transaction of the block, with every operand, is what the decoder reads from its word. -/
def Obligations.DecodeOfEncode : Prop :=
  ∀ i, WellFormed i = true → decode (encode i) = .ok i

/-- The decoder answers transactions of the block only, and drops no bit of a word but the WDATA of a
read, which R50 has it ignore. -/
def Obligations.EncodeOfDecode : Prop :=
  ∀ t i, decode t = .ok i →
    WellFormed i = true
    ∧ encode i = if tWe t then t else t &&& 0x1FF00000000

/-- R50: a transaction is a row's operation when the row's mask and match select it. The decoder's
answer is of a row that does, and no other row does, but that CMD_ILLEGAL, of lowest priority, covers
every write of CMD. -/
def Obligations.DecoderFollowsTheOpcodeMap : Prop :=
  ∀ t i, decode t = .ok i →
    ∃ r ∈ opcodeTable, r.mnemonic = i.mnemonic ∧ r.covers t = true
      ∧ ∀ r' ∈ disjointRows, r'.covers t = true → r' = r

/-- R33, R56: exactly the words at an offset that is a multiple of 4 decode, and they are exactly those
that some row of the opcode map covers. -/
def Obligations.AlignedWordsHaveARow : Prop :=
  ∀ t : TWord,
    ((∃ i, decode t = .ok i) ↔ (tOff t).toNat % 4 = 0)
    ∧ ((tOff t).toNat % 4 = 0 ↔ ∃ r ∈ opcodeTable, r.covers t = true)

/-- R57: a write of CMD is illegal when OP is 0x06 to 0xFF or a reserved ARG bit of R54 is 1; it sets
ERR_ILLOP and changes nothing else. -/
def Obligations.IllegalCommandWordsRejected : Prop :=
  ∀ (w : Word) (s : State),
    (decode (mkT true 0x10 w) = .ok (.cmdIllegal w)
      ↔ 0x06000000 ≤ w.toNat
        ∨ (w.toNat / 2 ^ 24 = 3 ∧ w.toNat % 2 ^ 24 / 2 ^ 8 ≠ 0)
        ∨ (w.toNat / 2 ^ 24 = 4 ∧ w.toNat % 2 ^ 24 / 2 ≠ 0)
        ∨ (w.toNat / 2 ^ 24 ∈ [0, 1, 2, 5] ∧ w.toNat % 2 ^ 24 ≠ 0))
    ∧ exec (.cmdIllegal w) s = .next { s with eIllop := true }

/-! ### The step -/

/-- A step whose next input is an admitted request of the host performs the instruction that the
request's word decodes to, the input being used up (that the host's requests stand in a list is the
model's choice, log entry 1). A request by transaction word is admitted as that word. -/
def Obligations.StepPerformsTheDecodedInstruction : Prop :=
  ∀ (s : State) (r : Request) (rest : List Input) (t : TWord) (i : Instr),
    s.inputs = .host r :: rest → r.toWord = .ok t → decode t = .ok i →
      (Request.reg t).toWord = .ok t ∧ step s = exec i { s with inputs := rest }

/-- A step whose next input is the engine's is the engine's turn with the Slave's answer, the input
being used up; without an input the engine has the turn, with a free answer and the counter moved on.
The list, and whose turn it is when it is empty, are the model's choice (log entries 1, 2, 3). -/
def Obligations.StepTakesTheEnginesTurn : Prop :=
  ∀ (s : State) (miso : Byte) (rest : List Input),
    (s.inputs = .engine miso :: rest → step s = .next (engineTurn miso { s with inputs := rest }))
    ∧ (s.inputs = [] →
        ∃ answer, step s = .next (engineTurn answer { s with draws := s.draws + 1 }))

/-- R13: a bus access of width 4 at an aligned host address of the window is the register transaction
at `addr - BASE`. -/
def Obligations.BusAccessIsRegisterTransaction : Prop :=
  ∀ a : BusAccess, Config.base ≤ a.addr → a.addr < Config.base + 256 → a.size = 4 →
    (a.addr - Config.base) % 4 = 0 →
      (Request.bus a).toWord
        = .ok (mkT a.write (BitVec.ofNat 8 (a.addr - Config.base)) (if a.write then a.wdata else 0))

/-- R33: a transaction of another width than 32 bits, or at an offset that is not a multiple of 4, is
refused. -/
def Obligations.UnadmittedTransactionsRefused : Prop :=
  ∀ (s : State) (rest : List Input),
    (∀ t : TWord, (tOff t).toNat % 4 ≠ 0 →
      s.inputs = .host (.reg t) :: rest → step s = .refused .notAdmitted)
    ∧ (∀ a : BusAccess, Config.base ≤ a.addr → a.addr < Config.base + 256 →
        (a.size ≠ 4 ∨ (a.addr - Config.base) % 4 ≠ 0) →
        s.inputs = .host (.bus a) :: rest → step s = .refused .notAdmitted)

/-- R34: the model has no step for a host address outside the window. -/
def Obligations.AddressesOutsideTheWindowRefused : Prop :=
  ∀ (s : State) (rest : List Input) (a : BusAccess),
    (a.addr < Config.base ∨ Config.base + 256 ≤ a.addr) →
    s.inputs = .host (.bus a) :: rest → step s = .refused .outsideWindow

/-- R108, R118: every transaction of the block answers a next state, rejected or not, and uses nothing
of the environment's side but that a read adds one value. -/
def Obligations.EveryTransactionCompletes : Prop :=
  ∀ (i : Instr) (s : State), ∃ t, exec i s = .next t
    ∧ t.inputs = s.inputs ∧ t.draws = s.draws
    ∧ s.reads <+: t.reads ∧ t.reads.length ≤ s.reads.length + 1

/-- A step whose listed requests are all admitted answers a next state whose listed requests are all
admitted; so a run of any length never stops, however host and engine take turns and whatever the Slave
answers. The list, and that the engine moves when it is empty, are the model's choice (log entries 1
and 2). -/
def Obligations.AdmittedRunsNeverStop : Prop :=
  (∀ s : State, InputsAdmitted s.inputs → ∃ t, step s = .next t ∧ InputsAdmitted t.inputs)
  ∧ ∀ s : State, InputsAdmitted s.inputs → ∀ k, ∃ t, core.run k s = .next t
      ∧ InputsAdmitted t.inputs

/-! ### The SPI unit -/

/-- R63: RD_CTRL returns `{16'b0, clkdiv, 6'b0, cpha, cpol}`, has no other effect, and is allowed while
BUSY. -/
def Obligations.RdCtrlReturnsTheFields : Prop :=
  ∀ s : State, ∃ v : Word, exec .rdCtrl s = .next { s with reads := s.reads ++ [v] }
    ∧ v.toNat = s.clkdiv.toNat * 256 + s.cpha.toNat * 2 + s.cpol.toNat

/-- R64: WR_CTRL is rejected while BUSY, and else sets the three fields, ignoring the other bits: a
following RD_CTRL returns the written value with bits 7:2 and 31:16 zero. -/
def Obligations.WrCtrlSetsTheFields : Prop :=
  ∀ (s : State) (w : Word),
    (s.busy = true → exec (.wrCtrl w) s = .next { s with eBusy := true })
    ∧ (s.busy = false →
        exec (.wrCtrl w) s = .next { s with
          cpol := w.getLsbD 0, cpha := w.getLsbD 1, clkdiv := BitVec.ofNat 8 (w.toNat / 256) }
        ∧ ∀ t, exec (.wrCtrl w) s = .next t →
            exec .rdCtrl t = .next { t with reads := t.reads ++ [w &&& 0x0000FF03] })

/-- R65, R21: RD_STATUS returns the flags at their bits, the reserved bits 0, and clears TC; it
changes nothing else. -/
def Obligations.RdStatusReturnsTheFlags : Prop :=
  ∀ s : State, ∃ v : Word,
    exec .rdStatus s = .next { s with tc := false, reads := s.reads ++ [v] }
    ∧ v.getLsbD 0 = s.tc ∧ v.getLsbD 1 = s.busy ∧ v.getLsbD 2 = s.cs ∧ v.getLsbD 3 = s.sdone
    ∧ v.getLsbD 4 = s.fvalid ∧ v.getLsbD 5 = s.fact
    ∧ (∀ e, v.getLsbD e.statusBit = s.errorFlag e)
    ∧ ∀ n, n = 6 ∨ n = 7 ∨ 12 ≤ n → v.getLsbD n = false

/-- R66: TX is rejected while BUSY, and else puts the low byte of WDATA in flight and clears TC,
whatever chip-select is. -/
def Obligations.TxStartsAnExchange : Prop :=
  ∀ (s : State) (w : Word),
    (s.busy = true → exec (.tx w) s = .next { s with eBusy := true })
    ∧ (s.busy = false →
        exec (.tx w) s = .next { s with xfer := some (BitVec.ofNat 8 (w.toNat % 256)), tc := false })

/-- R67, R85: RD_RXDATA returns the last received byte, zero-extended, and RD_VALUE the last Sample;
neither has a side effect. -/
def Obligations.RdRxdataAndRdValue : Prop :=
  ∀ s : State,
    (∃ v : Word, exec .rdRxdata s = .next { s with reads := s.reads ++ [v] } ∧ v.toNat = s.rx.toNat)
    ∧ exec .rdValue s = .next { s with reads := s.reads ++ [s.value] }

/-- R68, R69: CS_ASSERT and CS_DEASSERT are rejected while BUSY, and else drive chip-select in their
own transaction, with an event exactly when the pin changes. With an ARG bit set they are illegal. -/
def Obligations.ChipSelectCommands : Prop :=
  ∀ s : State,
    (s.busy = true → exec .csAssert s = .next { s with eBusy := true }
      ∧ exec .csDeassert s = .next { s with eBusy := true })
    ∧ (s.busy = false → s.cs = false →
        exec .csAssert s = .next { s with cs := true, trace := s.trace ++ [.csLow] }
        ∧ exec .csDeassert s = .next s)
    ∧ (s.busy = false → s.cs = true →
        exec .csAssert s = .next s
        ∧ exec .csDeassert s = .next { s with cs := false, trace := s.trace ++ [.csHigh] })
    ∧ ∀ op ∈ [(0x01 : Byte), 0x02], ∀ arg : BitVec 24, arg ≠ 0 →
        decode (mkT true 0x10 (commandWord op arg)) = .ok (.cmdIllegal (commandWord op arg))

/-- R70: with an exchange of the byte `m` in flight, and only then, the engine's turn completes it with
the Slave's byte. -/
def Obligations.XdoneCompletesTheExchange : Prop :=
  ∀ (s : State) (miso : Byte),
    (∀ m, s.xfer = some m → engineTurn miso s = { s with
      trace := s.trace ++ [.xchg m miso], rx := miso, tc := true, xfer := none })
    ∧ ((xdoneStep miso s).isSome ↔ ∃ m, s.xfer = some m)

/-! ### The ACQ unit -/

/-- R74: SAMPLE of a legal channel, not BUSY and with chip-select deasserted, latches the channel,
clears SDONE and starts the sequence; the checks that fail reject it, in the order Busy, BadState,
InvalidChannel, and change one flag only. With a bit of WDATA[23:8] set the word is illegal. -/
def Obligations.SampleStartsTheSequence : Prop :=
  ∀ (s : State) (c : Byte),
    (s.busy = false → s.cs = false → c.toNat ≤ 7 →
      exec (.sample c) s
        = .next { s with ch := BitVec.ofNat 3 c.toNat, sdone := false, seq := .cslo })
    ∧ (s.busy = true → exec (.sample c) s = .next { s with eBusy := true })
    ∧ (s.busy = false → s.cs = true → exec (.sample c) s = .next { s with eState := true })
    ∧ (s.busy = false → s.cs = false → 8 ≤ c.toNat →
        exec (.sample c) s = .next { s with eInvch := true })
    ∧ ∀ arg : BitVec 24, 256 ≤ arg.toNat →
        decode (mkT true 0x10 (commandWord 0x03 arg)) = .ok (.cmdIllegal (commandWord 0x03 arg))

/-- R112, R113: exactly a SAMPLE while not BUSY raises BadState, with chip-select asserted, and
InvalidChannel, with chip-select deasserted and CHANNEL above 7. -/
def Obligations.SampleErrorsAreRaisedExactlySo : Prop :=
  ∀ (i : Instr) (s t : State), exec i s = .next t →
    (s.eState = false →
      (t.eState = true ↔ s.busy = false ∧ s.cs = true ∧ ∃ c, i = .sample c))
    ∧ (s.eInvch = false →
      (t.eInvch = true ↔ s.busy = false ∧ s.cs = false ∧ ∃ c, i = .sample c ∧ 7 < c.toNat))
    ∧ (t.eState ≠ s.eState ∨ t.eInvch ≠ s.eInvch → t.cs = s.cs ∧ t.trace = s.trace)

/-- R75 to R79: the engine's turn in phases CSLO, X1, X2, X3 and CSHI. Nothing but the named fields
changes, so neither RXDATA nor TC does. -/
def Obligations.AcqPhasesStep : Prop :=
  ∀ (s : State) (miso : Byte), s.xfer = none →
    (s.seq = .cslo → engineTurn miso s = { s with
      cs := true, trace := s.trace ++ [.csLow], seq := .x1 })
    ∧ (s.seq = .x1 → engineTurn miso s = { s with
        trace := s.trace ++ [.xchg 0x06 miso], seq := .x2 })
    ∧ (s.seq = .x2 → engineTurn miso s = { s with
        hi := BitVec.ofNat 4 (miso.toNat % 16), seq := .x3,
        trace := s.trace ++ [.xchg (BitVec.ofNat 8 (s.ch.toNat * 64)) miso] })
    ∧ (s.seq = .x3 → engineTurn miso s = { s with
        trace := s.trace ++ [.xchg 0x00 miso], lo := miso, seq := .cshi })
    ∧ (s.seq = .cshi → engineTurn miso s = { s with
        cs := false, trace := s.trace ++ [.csHigh], seq := .scale })

/-- R80, R81: the engine's turn in phase SCALE. -/
def Obligations.ScalePhaseStep : Prop :=
  ∀ (s : State) (miso : Byte), s.xfer = none → s.seq = .scale →
    ∃ (r : BitVec 12) (v : Word),
      engineTurn miso s = { s with raw := r, value := v, sdone := true, seq := .idle }
      ∧ r.toNat = s.hi.toNat * 256 + s.lo.toNat ∧ v.toNat = r.toNat * 330000 / 4096
      ∧ v.toNat ≤ 329919

/-- R82: the Sample is the exact value of the expression `1000 * ((raw * 3.3) / 4096) * 100` over the
rationals, truncated once. -/
def Obligations.ScalingIsTheExactFloor : Prop :=
  ∀ raw : BitVec 12,
    ((scaleRaw raw).toNat : Int) = ⌊(1000 : ℚ) * (((raw.toNat : ℚ) * (33 / 10)) / 4096) * 100⌋
    ∧ (scaleRaw raw).toNat = raw.toNat * 3300 * 100 / 4096
    ∧ (scaleRaw raw).toNat = raw.toNat * 330000 / 4096
    ∧ (scaleRaw raw).toNat = (raw.toNat * 330000) >>> 12

/-- R83: no product reaches `2^31`, and the Sample lies in [0, 329919], whose bound raw 4095 attains,
rendered "329.919", the longest rendering of a Sample; read as a signed number it is not negative. -/
def Obligations.ScalingDoesNotOverflow : Prop :=
  ∀ raw : BitVec 12,
    raw.toNat * 330000 < 2 ^ 31 ∧ (scaleRaw raw).toNat ≤ 329919 ∧ 0 ≤ (scaleRaw raw).toInt
    ∧ (render (scaleRaw raw)).length ≤ 7
    ∧ (raw.toNat = 4095 → (scaleRaw raw).toNat = 329919
        ∧ render (scaleRaw raw) = [0x33, 0x32, 0x39, 0x2E, 0x39, 0x31, 0x39])

/-- R86: the channel byte is `(c mod 4) << 6`, so channels `c` and `c + 4` send the same byte; and no
run lets an observer tell them apart: from states that differ only in the channel's bit 2, every run
goes through states that differ only there. -/
def Obligations.ChannelBit2IsUnobservable : Prop :=
  (∀ c : BitVec 3, (channelByte c).toNat = c.toNat % 4 * 64
    ∧ channelByte c = channelByte (c + 4))
  ∧ ∀ (k : Nat) (s t s' : State), AgreeButChannelBit2 s t → core.run k s = .next s' →
      ∃ t', core.run k t = .next t' ∧ AgreeButChannelBit2 s' t'

/-- The trace of one accepted SAMPLE (R10; 41_adc_sample.md section 2): under every interleaving of
the six engine turns with admitted host transactions, the events are exactly CS_LOW, the three
exchanges, CS_HIGH, and VALUE is the Sample of the second and third answer (R81, R82). That the turns
stand in a list is the model's choice (log entry 1). -/
def Obligations.SampleTraceUnderEveryInterleaving : Prop :=
  ∀ (s : State) (c : Byte) (pre : List Input) (d1 s1 s2 s3 d5 d6 : Byte) (rest : List Input),
    s.busy = false → s.cs = false → c.toNat ≤ 7 →
    s.inputs = .host (.reg (encode (.sample c))) :: (pre ++ .engine d6 :: rest) →
    InputsAdmitted pre → engineAnswers pre = [d1, s1, s2, s3, d5] →
      ∃ t, core.run (pre.length + 2) s = .next t
        ∧ t.inputs = rest ∧ t.busy = false ∧ t.sdone = true ∧ t.cs = false ∧ t.rx = s.rx
        ∧ t.trace = s.trace ++ [.csLow, .xchg 0x06 s1,
            .xchg (BitVec.ofNat 8 (c.toNat * 64)) s2, .xchg 0x00 s3, .csHigh]
        ∧ t.raw.toNat = s2.toNat % 16 * 256 + s3.toNat
        ∧ t.value.toNat = (s2.toNat % 16 * 256 + s3.toNat) * 330000 / 4096

/-! ### The FMT unit -/

/-- R87, R88: WR_FMT_IN sets all 32 bits, BUSY or not, and touches no rendering in flight; RD_FMT_IN
returns them. -/
def Obligations.FmtInWriteAndRead : Prop :=
  ∀ (s : State) (w : Word),
    exec (.wrFmtIn w) s = .next { s with fmtIn := w }
    ∧ exec .rdFmtIn s = .next { s with reads := s.reads ++ [s.fmtIn] }

/-- R89: FORMAT is rejected while BUSY, and else latches the rendering of FMT_IN or VALUE and becomes
active. With a bit of WDATA[23:1] set the word is illegal. -/
def Obligations.FormatStartsARendering : Prop :=
  ∀ s : State,
    (s.busy = true → ∀ src, exec (.format src) s = .next { s with eBusy := true })
    ∧ (s.busy = false →
        exec (.format .fmtIn) s = .next { s with fpend := render s.fmtIn, fact := true }
        ∧ exec (.format .value) s = .next { s with fpend := render s.value, fact := true })
    ∧ ∀ arg : BitVec 24, 2 ≤ arg.toNat →
        decode (mkT true 0x10 (commandWord 0x04 arg)) = .ok (.cmdIllegal (commandWord 0x04 arg))

/-- R91: `dec n` is the decimal spelling of `n`, most significant digit first and without padding, for
every `n` of the integer and fractional parts. -/
def Obligations.DecIsTheDecimalSpelling : Prop :=
  ∀ n : Nat, n ≤ 2147483 →
    dec 0 = [0x30]
    ∧ (n ≠ 0 → (dec n).map BitVec.toNat = (Nat.digits 10 n).reverse.map (· + 0x30))

/-- R90: the text of a rendering is the sign, the spelling of the integer part of the magnitude, a
point and the spelling of the fractional part, as `toString` spells numbers. -/
def Obligations.RenderingText : Prop :=
  ∀ x : Word,
    String.ofList ((render x).map fun b => Char.ofNat b.toNat)
      = (if x.toInt < 0 then "-" else "") ++ toString (x.toInt.natAbs / 1000) ++ "."
        ++ toString (x.toInt.natAbs % 1000)

/-- R96: every rendering is 3 to 12 bytes long, and that of a completed Sample 3 to 7. -/
def Obligations.RenderingLength : Prop :=
  ∀ x : Word, 3 ≤ (render x).length ∧ (render x).length ≤ 12
    ∧ (x.toNat ≤ 329919 → (render x).length ≤ 7)

/-- R92: a rendering holds at most one sign, exactly when the value is negative and then as its first
byte, and exactly one point. -/
def Obligations.RenderingSignAndPoint : Prop :=
  ∀ x : Word,
    (x.toInt < 0 → (render x).head? = some 0x2D ∧ (render x).count 0x2D = 1)
    ∧ (0 ≤ x.toInt → (render x).count 0x2D = 0)
    ∧ (render x).count 0x2E = 1

/-- R93: EMIT moves the next pending byte into FMT_DATA exactly when a rendering is active and no byte
is held. -/
def Obligations.EmitMovesTheNextByte : Prop :=
  ∀ (s : State) (miso : Byte),
    (∀ b more, s.xfer = none → s.seq = .idle → s.fact = true → s.fvalid = false →
      s.fpend = b :: more → engineTurn miso s = { s with
        fdata := b, flast := decide (more = []), fvalid := true, fpend := more })
    ∧ ((emitStep s).isSome ↔ s.fact = true ∧ s.fvalid = false ∧ s.fpend ≠ [])

/-- R94, R28: RD_FMT_DATA returns BYTE, VALID and LAST; it pops a held byte, and the LAST one ends the
rendering. Without a held byte nothing but the answer happens. -/
def Obligations.RdFmtDataPops : Prop :=
  ∀ s : State, ∃ v : Word,
    v.toNat = s.fdata.toNat + s.fvalid.toNat * 256 + s.flast.toNat * 512
    ∧ (s.fvalid = false → exec .rdFmtData s = .next { s with reads := s.reads ++ [v] })
    ∧ (s.fvalid = true → s.flast = false → exec .rdFmtData s = .next { s with
        reads := s.reads ++ [v], fvalid := false, fdata := 0, flast := false })
    ∧ (s.fvalid = true → s.flast = true → exec .rdFmtData s = .next { s with
        reads := s.reads ++ [v], fvalid := false, fdata := 0, flast := false, fact := false })

/-- 42_formatter.md section 4: from an idle block, FORMAT and then any interleaving of engine turns with
admitted transactions. The values with VALID that the host reads from FMT_DATA are, in order, the bytes
of the rendering, with LAST on its last byte alone; until that one is read, the bytes not read yet are
the rest of the rendering, FACT is set and no pin moves; and all of them are read once the turns hold,
with whatever between, as many rounds of an engine turn and a later read of FMT_DATA as the rendering has
bytes. Where the rounds are all there is, the host reads just these values and the block ends idle. That
the turns stand in a list is the model's choice (log entry 1). -/
def Obligations.RenderingReachesTheHostInOrder : Prop :=
  (∀ (s : State) (src : FmtSrc) (turns rest : List Input),
    s.busy = false → s.fvalid = false →
    s.inputs = .host (.reg (encode (.format src))) :: (turns ++ rest) → InputsAdmitted turns →
      ∃ (t : State) (bytes : List Byte) (vs : List Word),
        core.run (turns.length + 1) s = .next t ∧ t.inputs = rest
        ∧ bytes = render (match src with | .fmtIn => s.fmtIn | .value => s.value)
        ∧ vs = (formattedWords (turns.length + 1) s).take bytes.length
        ∧ vs.map (fun v => v.extractLsb' 0 8)
            ++ (if vs.length < bytes.length then t.undelivered else []) = bytes
        ∧ (∀ (j : Nat) (v : Word), vs[j]? = some v → v.getLsbD 9 = decide (j + 1 = bytes.length))
        ∧ (vs.length < bytes.length → t.fact = true ∧ t.trace = s.trace)
        ∧ ∀ rounds : List (Byte × Request),
            (∀ p ∈ rounds, p.2.instr = some .rdFmtData) → rounds.length = bytes.length →
            (rounds.flatMap fun p => [.engine p.1, .host p.2]).Sublist turns →
              vs.length = bytes.length)
  ∧ ∀ (s : State) (src : FmtSrc) (misos : List Byte) (rest : List Input),
      s.busy = false → s.fvalid = false →
      misos.length = (render (match src with | .fmtIn => s.fmtIn | .value => s.value)).length →
      s.inputs = .host (.reg (encode (.format src)))
        :: (misos.flatMap fun m => [.engine m, .host (.reg (encode .rdFmtData))]) ++ rest →
        ∃ t, core.run (2 * misos.length + 1) s = .next t
          ∧ t.busy = false ∧ t.fvalid = false ∧ t.inputs = rest ∧ t.trace = s.trace
          ∧ ∃ vs : List Word, t.reads = s.reads ++ vs
            ∧ vs.map (fun v => v.extractLsb' 0 8)
                = render (match src with | .fmtIn => s.fmtIn | .value => s.value)
            ∧ (∀ v ∈ vs, v.getLsbD 8 = true)
            ∧ vs.map (fun v => v.getLsbD 9)
                = List.replicate (misos.length - 1) false ++ [true]

/-! ### Control and fixed-result accesses -/

/-- R97, R102 to R105, R107: NOP and the writes of read-only and unmapped offsets change nothing, BUSY
or not. A NOP word with an ARG bit set is illegal. -/
def Obligations.IgnoredWritesAndNop : Prop :=
  ∀ (s : State) (w : Word) (k3 : BitVec 3) (k4 : BitVec 4) (k5 : BitVec 5),
    (∀ i ∈ [Instr.nop, .wrStatus w, .wrRxdata w, .wrValue w, .wrFmtData w, .wrUnmapped20 k3 w,
        .wrUnmapped40 k4 w, .wrUnmapped80 k5 w],
      exec i s = .next s)
    ∧ ∀ arg : BitVec 24, arg ≠ 0 →
        decode (mkT true 0x10 (commandWord 0x00 arg)) = .ok (.cmdIllegal (commandWord 0x00 arg))

/-- R98: CLRERR clears the four sticky flags and changes nothing else, BUSY or not; with an ARG bit set
the word is illegal, and no other transaction clears a flag. -/
def Obligations.ClrerrClearsTheErrors : Prop :=
  ∀ s : State,
    exec .clrerr s
      = .next { s with eIllop := false, eBusy := false, eState := false, eInvch := false }
    ∧ (∀ arg : BitVec 24, arg ≠ 0 →
        decode (mkT true 0x10 (commandWord 0x05 arg)) = .ok (.cmdIllegal (commandWord 0x05 arg)))
    ∧ ∀ (i : Instr) (t : State) (e : ErrorCode), i ≠ .clrerr → exec i s = .next t →
        s.errorFlag e = true → t.errorFlag e = true

/-- R100, R101, R106: a read of a write-only register or of an unmapped offset returns 0 and has no
side effect. -/
def Obligations.FixedResultReads : Prop :=
  ∀ (s : State) (k3 : BitVec 3) (k4 : BitVec 4) (k5 : BitVec 5),
    ∀ i ∈ [Instr.rdTxdata, .rdCmd, .rdUnmapped20 k3, .rdUnmapped40 k4, .rdUnmapped80 k5],
      exec i s = .next { s with reads := s.reads ++ [0x00000000] }

/-! ### Errors -/

/-- R111: WR_CTRL, TX, CS_ASSERT, CS_DEASSERT, SAMPLE and FORMAT are rejected with Busy while BUSY, and
no other transaction is. -/
def Obligations.BusyIsRaisedByExactlySix : Prop :=
  ∀ (s t : State) (i : Instr), s.eBusy = false → exec i s = .next t →
    (t.eBusy = true ↔ s.busy = true ∧
      ((∃ w, i = .wrCtrl w) ∨ (∃ w, i = .tx w) ∨ i = .csAssert ∨ i = .csDeassert
        ∨ (∃ c, i = .sample c) ∨ ∃ src, i = .format src))
    ∧ (t.eBusy = true → t = { s with eBusy := true })

/-- R118, R108: a rejection is precise. A transaction that sets an error flag where none was set is
rejected whatever flags are set, and then sets that flag and changes nothing else. -/
def Obligations.RejectionsArePrecise : Prop :=
  ∀ (i : Instr) (s t : State) (e : ErrorCode), exec i s.clearErrors = .next t →
    t.errorFlag e = true →
      ∃ u, exec i s = .next u ∧ (∀ f, u.errorFlag f = (decide (f = e) || s.errorFlag f))
        ∧ u = { s with
            eIllop := u.eIllop, eBusy := u.eBusy, eState := u.eState, eInvch := u.eInvch }

/-- R119: the error flags are sticky. A step that clears one is the host's CLRERR. -/
def Obligations.ErrorFlagsAreSticky : Prop :=
  ∀ (s t : State) (e : ErrorCode), step s = .next t →
    s.errorFlag e = true → t.errorFlag e = false →
      ∃ r u, s.inputs.head? = some (.host r) ∧ r.toWord = .ok u ∧ decode u = .ok .clrerr

/-- R39: of the reads, exactly those of STATUS and FMT_DATA have a side effect, and those are to clear
TC and to pop a held byte. -/
def Obligations.ReadSideEffects : Prop :=
  ∀ (s t : State) (i : Instr), tWe (encode i) = false → exec i s = .next t →
    (i ≠ .rdStatus → i ≠ .rdFmtData → t = { s with reads := t.reads })
    ∧ (i = .rdStatus → t = { s with reads := t.reads, tc := false })
    ∧ (i = .rdFmtData → s.fvalid = false → t = { s with reads := t.reads })
    ∧ (i = .rdFmtData → s.fvalid = true → t.fvalid = false)

/-- 20_memory.md section 3: a write of CTRL or FMT_IN is idempotent. Writing the same value twice reaches
the same state as writing it once, rejected or not. -/
def Obligations.ConfigurationWritesAreIdempotent : Prop :=
  ∀ (s t : State) (w : Word),
    (exec (.wrCtrl w) s = .next t → exec (.wrCtrl w) t = .next t)
    ∧ (exec (.wrFmtIn w) s = .next t → exec (.wrFmtIn w) t = .next t)

/-- R111, R73: no transaction disturbs an operation in flight: while BUSY it changes at most TC, the
error flags, FMT_IN and the values read, and FMT_DATA and FACT only by a read of FMT_DATA. -/
def Obligations.BusyProtectsTheOperation : Prop :=
  ∀ (i : Instr) (s t : State), s.busy = true → exec i s = .next t →
    t = { s with
      tc := t.tc, fmtIn := t.fmtIn, reads := t.reads, fact := t.fact, fvalid := t.fvalid,
      fdata := t.fdata, flast := t.flast, eIllop := t.eIllop, eBusy := t.eBusy,
      eState := t.eState, eInvch := t.eInvch }
    ∧ (i ≠ .rdFmtData → t.undelivered = s.undelivered ∧ t.fact = s.fact ∧ t.fvalid = s.fvalid
        ∧ t.fdata = s.fdata ∧ t.flast = s.flast)

/-! ### Rules of the whole machine -/

/-- The invariant holds at reset. -/
def Obligations.InvariantAtReset : Prop := Inv State.reset

/-- Every step keeps the invariant: the units exclude each other (R18), the sample's bracket (R75,
R79), VALUE (R83), FMT_DATA (R28, R93), the rendering (R30, R96) and the trace (R27) stay consistent. -/
def Obligations.StepKeepsTheInvariant : Prop :=
  ∀ s t : State, Inv s → step s = .next t → Inv t

/-- R27: the trace only grows, by at most one event a step; chip-select falls or rises exactly with its
event. -/
def Obligations.TraceRecordsEveryPinEvent : Prop :=
  ∀ s t : State, Inv s → step s = .next t →
    (t.trace = s.trace ∧ t.cs = s.cs)
    ∨ (t.trace = s.trace ++ [.csLow] ∧ s.cs = false ∧ t.cs = true)
    ∨ (t.trace = s.trace ++ [.csHigh] ∧ s.cs = true ∧ t.cs = false)
    ∨ ∃ m r, t.trace = s.trace ++ [.xchg m r] ∧ t.cs = s.cs

/-- R73, R18: in the states of a run at most one unit's engine step is enabled, and the block is BUSY
when one is. -/
def Obligations.AtMostOneEngineStepIsEnabled : Prop :=
  ∀ (s : State) (miso : Byte), Inv s →
    ((xdoneStep miso s).isSome → acqStep miso s = none ∧ emitStep s = none)
    ∧ ((acqStep miso s).isSome → emitStep s = none)
    ∧ ((engineStep miso s).isSome → s.busy = true)

/-- R135: in a quiescent block no engine step is enabled; a block that is not quiescent and has none
holds a byte for the host. -/
def Obligations.QuiescentMeansNoEngineStep : Prop :=
  ∀ (s : State) (miso : Byte), Inv s →
    (s.quiescent = true → engineStep miso s = none)
    ∧ (s.quiescent = false → engineStep miso s = none → s.fvalid = true)

/-- 40_spi_transfer.md section 3: TC always sets after an accepted TX. An exchange in flight completes
within the listed inputs and one more turn, whatever admitted transactions the host performs before.
That the engine has the turn once the list is empty is the model's choice (log entry 2). -/
def Obligations.AcceptedExchangeCompletes : Prop :=
  ∀ (s : State) (m : Byte), InputsAdmitted s.inputs → s.xfer = some m →
    ∃ (k : Nat) (t : State) (miso : Byte), k ≤ s.inputs.length + 1 ∧ core.run k s = .next t
      ∧ t.tc = true ∧ t.xfer = none ∧ t.rx = miso ∧ t.trace = s.trace ++ [.xchg m miso]

/-- 60_exceptions.md section 1: a sample in flight completes within the listed inputs and six more turns,
whatever admitted transactions the host performs before. That the engine has the turn once the list is
empty is the model's choice (log entry 2). -/
def Obligations.AcceptedSampleCompletes : Prop :=
  ∀ s : State, Inv s → InputsAdmitted s.inputs → s.seq ≠ .idle →
    ∃ (k : Nat) (t : State), k ≤ s.inputs.length + 6 ∧ core.run k s = .next t
      ∧ t.busy = false ∧ t.sdone = true ∧ t.cs = false

/-- R71, R20: no byte exchanged depends on CTRL. From states that differ only in CTRL every run goes
through states that differ only in CTRL and the values read; and if the host does not read CTRL, only
in CTRL. -/
def Obligations.CtrlDoesNotInfluenceRuns : Prop :=
  (∀ (k : Nat) (s t s' : State), AgreeButCtrlAndReads s t → core.run k s = .next s' →
    ∃ t', core.run k t = .next t' ∧ AgreeButCtrlAndReads s' t')
  ∧ ∀ (k : Nat) (s t s' : State), AgreeButCtrl s t → core.run k s = .next s' →
      (∀ r u, Input.host r ∈ s.inputs → r.toWord = .ok u → decode u ≠ .ok .rdCtrl) →
      ∃ t', core.run k t = .next t' ∧ AgreeButCtrl s' t'

/-- R128: after a STATUS read that found no exchange in flight, TC stays 0 until a TX is accepted. -/
def Obligations.ConsumedTcStaysClear : Prop :=
  ∀ s t : State, s.tc = false → s.xfer = none → step s = .next t →
    (∀ r u w, s.inputs.head? = some (.host r) → r.toWord = .ok u → decode u ≠ .ok (.tx w)) →
      t.tc = false ∧ t.xfer = none

/-- R130: a rendering holds BUSY until the host has read its LAST byte: a step that ends it is a read
of FMT_DATA that pops the LAST byte. -/
def Obligations.RenderingHoldsBusy : Prop :=
  ∀ s t : State, s.fact = true → step s = .next t → t.fact = false →
    s.fvalid = true ∧ s.flast = true
    ∧ ∃ r u, s.inputs.head? = some (.host r) ∧ r.toWord = .ok u ∧ decode u = .ok .rdFmtData

/-! ### Orders of bits and bytes -/

/-- R36: MOSI carries bit 7 first and bit 0 last, and the first MISO bit becomes bit 7 of the received
byte. R35: byte lane `k` carries bits `[8k+7:8k]`, and the four lanes carry the whole register. -/
def Obligations.WireBitsAndByteLanes : Prop :=
  (∀ (b : Byte) (n : Nat), n < 8 → (mosiBits b)[n]? = some (b.getLsbD (7 - n)))
  ∧ (∀ levels : List Bool, levels.length = 8 →
      ∀ n < 8, levels[n]? = some ((shiftIn levels).getLsbD (7 - n)))
  ∧ ∀ v : Word,
      (∀ k n, k < 4 → n < 8 → (byteLane k v).getLsbD n = v.getLsbD (8 * k + n))
      ∧ ofByteLanes (byteLane 0 v) (byteLane 1 v) (byteLane 2 v) (byteLane 3 v) = v

/-! ### Host programs -/

/-- R62: the expansion of `XFER b -> h` on an idle block, polled `n` times before the engine's turn,
ends with `h` the byte that the Slave answered, and the exchange is in the trace. -/
def Obligations.XferReturnsTheAnswer : Prop :=
  ∀ (n t h : Nat) (b miso : Byte) (prog : List HostStmt) (d : Driver),
    d.prog = xferByte 0 t b h ++ prog → d.pc = 0 → d.halted = false → d.block.busy = false →
      ∃ d', d.run (.host :: (List.replicate n [Turn.host, .host]).flatten
                ++ [.engine miso, .host, .host, .host]) = .ok d'
        ∧ getVar h d'.vars = some (miso.setWidth 32)
        ∧ d'.pc = 4 ∧ d'.block.trace = d.block.trace ++ [.xchg b miso]
        ∧ d'.block.busy = false ∧ d'.block.tc = false
end

