-- ==== Sys2Proof/Laws/Decode.lean ====
section
/-! SUPPORT. The fields of an assembled transaction word and of an assembled command word. -/

namespace Sys2Proof

/-- The bits of an assembled transaction word (R50). -/
theorem getLsbD_mkT (we : Bool) (off : Byte) (w : Word) (i : Nat) :
    (mkT we off w).getLsbD i
      = if i < 32 then w.getLsbD i
        else if i < 40 then off.getLsbD (i - 32) else decide (i = 40) && we := by
  have h : (mkT we off w).getLsbD i = ((BitVec.ofBool we ++ off) ++ w).getLsbD i := rfl
  rw [h, BitVec.getLsbD_append, BitVec.getLsbD_append]
  rcases Nat.lt_or_ge i 32 with h1 | h1
  · simp [h1]
  · rcases Nat.lt_or_ge i 40 with h2 | h2
    · simp [show ¬ i < 32 by omega, h2, show i - 32 < 8 by omega]
    · simp only [show ¬ i < 32 by omega, show ¬ i < 40 by omega, show ¬ i - 32 < 8 by omega]
      rcases Nat.lt_or_ge 40 i with h3 | h3
      · simp [show i ≠ 40 by omega, BitVec.getLsbD_ofBool, show i - 32 - 8 ≠ 0 by omega]
      · simp [show i = 40 by omega]

@[simp] theorem tWe_mkT (we : Bool) (off : Byte) (w : Word) : tWe (mkT we off w) = we := by
  rw [tWe, getLsbD_mkT]; simp

@[simp] theorem tOff_mkT (we : Bool) (off : Byte) (w : Word) : tOff (mkT we off w) = off := by
  apply BitVec.eq_of_getLsbD_eq
  intro i hi
  rw [tOff, BitVec.getLsbD_extractLsb', getLsbD_mkT]
  simp [hi, show 32 + i < 40 by omega]

@[simp] theorem tWdata_mkT (we : Bool) (off : Byte) (w : Word) : tWdata (mkT we off w) = w := by
  apply BitVec.eq_of_getLsbD_eq
  intro i hi
  rw [tWdata, BitVec.getLsbD_extractLsb', getLsbD_mkT]
  simp [hi]

/-- A transaction word is assembled from its fields (R50). -/
theorem mkT_fields (t : TWord) : mkT (tWe t) (tOff t) (tWdata t) = t := by
  apply BitVec.eq_of_getLsbD_eq
  intro i hi
  rw [getLsbD_mkT, tWdata, tOff, tWe, BitVec.getLsbD_extractLsb', BitVec.getLsbD_extractLsb']
  rcases Nat.lt_or_ge i 32 with h1 | h1
  · simp [h1]
  · rcases Nat.lt_or_ge i 40 with h2 | h2
    · simp [show ¬ i < 32 by omega, h2, show i - 32 < 8 by omega, show 32 + (i - 32) = i by omega]
    · simp [show i = 40 by omega]

/-- Two transaction words with the same fields are the same (R50). -/
theorem tword_ext {t u : TWord} (hw : tWe t = tWe u) (ho : tOff t = tOff u)
    (hd : tWdata t = tWdata u) : t = u := by
  rw [← mkT_fields t, ← mkT_fields u, hw, ho, hd]

/-- The bits of an assembled command word (R53). -/
theorem getLsbD_commandWord (op : Byte) (arg : BitVec 24) (i : Nat) :
    (commandWord op arg).getLsbD i = if i < 24 then arg.getLsbD i else op.getLsbD (i - 24) := by
  have h : (commandWord op arg).getLsbD i = (op ++ arg).getLsbD i := rfl
  rw [h, BitVec.getLsbD_append]

@[simp] theorem op_commandWord (op : Byte) (arg : BitVec 24) :
    (commandWord op arg).extractLsb' 24 8 = op := by
  apply BitVec.eq_of_getLsbD_eq
  intro i hi
  rw [BitVec.getLsbD_extractLsb', getLsbD_commandWord]
  simp [hi]

@[simp] theorem arg_commandWord (op : Byte) (arg : BitVec 24) :
    (commandWord op arg).extractLsb' 0 24 = arg := by
  apply BitVec.eq_of_getLsbD_eq
  intro i hi
  rw [BitVec.getLsbD_extractLsb', getLsbD_commandWord]
  simp [hi]

/-- A command word is assembled from its OP and ARG (R53). -/
theorem commandWord_fields (w : Word) :
    commandWord (w.extractLsb' 24 8) (w.extractLsb' 0 24) = w := by
  apply BitVec.eq_of_getLsbD_eq
  intro i hi
  rw [getLsbD_commandWord, BitVec.getLsbD_extractLsb', BitVec.getLsbD_extractLsb']
  rcases Nat.lt_or_ge i 24 with h | h
  · simp [h]
  · simp [show ¬ i < 24 by omega, show i - 24 < 8 by omega, show 24 + (i - 24) = i by omega]

/-- The offset of an unmapped access lies where its row says, and holds its free bits. -/
theorem offUnmapped20_spec : ∀ k : BitVec 3,
    (offUnmapped20 k).extractLsb' 0 2 = 0 ∧ 0x20 ≤ (offUnmapped20 k).toNat
    ∧ (offUnmapped20 k)[7] = false ∧ (offUnmapped20 k)[6] = false
    ∧ (offUnmapped20 k).extractLsb' 2 3 = k := by decide

theorem offUnmapped40_spec : ∀ k : BitVec 4,
    (offUnmapped40 k).extractLsb' 0 2 = 0 ∧ 0x20 ≤ (offUnmapped40 k).toNat
    ∧ (offUnmapped40 k)[7] = false ∧ (offUnmapped40 k)[6] = true
    ∧ (offUnmapped40 k).extractLsb' 2 4 = k := by decide

theorem offUnmapped80_spec : ∀ k : BitVec 5,
    (offUnmapped80 k).extractLsb' 0 2 = 0 ∧ 0x20 ≤ (offUnmapped80 k).toNat
    ∧ (offUnmapped80 k)[7] = true
    ∧ (offUnmapped80 k).extractLsb' 2 5 = k := by decide

/-- Decoding of an assembled word, by its fields (R56). -/
theorem decode_mkT (we : Bool) (off : Byte) (w : Word) :
    decode (mkT we off w)
      = if off.extractLsb' 0 2 ≠ 0 then .error .offsetNotAligned
        else if 0x20 ≤ off.toNat then .ok (decodeUnmapped we off w)
        else if we then .ok (decodeWrite off w) else .ok (decodeRead off) := by
  simp [decode]

end Sys2Proof
end

