-- ==== Sys2Proof/Laws/State.lean ====
section
/-! SUPPORT. What the named updates of the state do to each field, and to BUSY. -/

namespace Sys2Proof.Machine

/-! ### `State.returned` -/

@[simp] theorem State.returned_cpol (v : Word) (s : State) : (s.returned v).cpol = s.cpol := rfl
@[simp] theorem State.returned_cpha (v : Word) (s : State) : (s.returned v).cpha = s.cpha := rfl
@[simp] theorem State.returned_clkdiv (v : Word) (s : State) : (s.returned v).clkdiv = s.clkdiv := rfl
@[simp] theorem State.returned_cs (v : Word) (s : State) : (s.returned v).cs = s.cs := rfl
@[simp] theorem State.returned_tc (v : Word) (s : State) : (s.returned v).tc = s.tc := rfl
@[simp] theorem State.returned_rx (v : Word) (s : State) : (s.returned v).rx = s.rx := rfl
@[simp] theorem State.returned_xfer (v : Word) (s : State) : (s.returned v).xfer = s.xfer := rfl
@[simp] theorem State.returned_seq (v : Word) (s : State) : (s.returned v).seq = s.seq := rfl
@[simp] theorem State.returned_ch (v : Word) (s : State) : (s.returned v).ch = s.ch := rfl
@[simp] theorem State.returned_hi (v : Word) (s : State) : (s.returned v).hi = s.hi := rfl
@[simp] theorem State.returned_lo (v : Word) (s : State) : (s.returned v).lo = s.lo := rfl
@[simp] theorem State.returned_raw (v : Word) (s : State) : (s.returned v).raw = s.raw := rfl
@[simp] theorem State.returned_value (v : Word) (s : State) : (s.returned v).value = s.value := rfl
@[simp] theorem State.returned_sdone (v : Word) (s : State) : (s.returned v).sdone = s.sdone := rfl
@[simp] theorem State.returned_fmtIn (v : Word) (s : State) : (s.returned v).fmtIn = s.fmtIn := rfl
@[simp] theorem State.returned_fact (v : Word) (s : State) : (s.returned v).fact = s.fact := rfl
@[simp] theorem State.returned_fpend (v : Word) (s : State) : (s.returned v).fpend = s.fpend := rfl
@[simp] theorem State.returned_fvalid (v : Word) (s : State) : (s.returned v).fvalid = s.fvalid := rfl
@[simp] theorem State.returned_fdata (v : Word) (s : State) : (s.returned v).fdata = s.fdata := rfl
@[simp] theorem State.returned_flast (v : Word) (s : State) : (s.returned v).flast = s.flast := rfl
@[simp] theorem State.returned_eIllop (v : Word) (s : State) : (s.returned v).eIllop = s.eIllop := rfl
@[simp] theorem State.returned_eBusy (v : Word) (s : State) : (s.returned v).eBusy = s.eBusy := rfl
@[simp] theorem State.returned_eState (v : Word) (s : State) : (s.returned v).eState = s.eState := rfl
@[simp] theorem State.returned_eInvch (v : Word) (s : State) : (s.returned v).eInvch = s.eInvch := rfl
@[simp] theorem State.returned_trace (v : Word) (s : State) : (s.returned v).trace = s.trace := rfl
@[simp] theorem State.returned_reads (v : Word) (s : State) : (s.returned v).reads = s.reads ++ [v] := rfl
@[simp] theorem State.returned_inputs (v : Word) (s : State) : (s.returned v).inputs = s.inputs := rfl
@[simp] theorem State.returned_draws (v : Word) (s : State) : (s.returned v).draws = s.draws := rfl
@[simp] theorem State.returned_busy (v : Word) (s : State) : (s.returned v).busy = s.busy := rfl

/-! ### `State.drive` -/

@[simp] theorem State.drive_cpol (e : SpiEvent) (s : State) : (s.drive e).cpol = s.cpol := rfl
@[simp] theorem State.drive_cpha (e : SpiEvent) (s : State) : (s.drive e).cpha = s.cpha := rfl
@[simp] theorem State.drive_clkdiv (e : SpiEvent) (s : State) : (s.drive e).clkdiv = s.clkdiv := rfl
@[simp] theorem State.drive_cs (e : SpiEvent) (s : State) : (s.drive e).cs = s.cs := rfl
@[simp] theorem State.drive_tc (e : SpiEvent) (s : State) : (s.drive e).tc = s.tc := rfl
@[simp] theorem State.drive_rx (e : SpiEvent) (s : State) : (s.drive e).rx = s.rx := rfl
@[simp] theorem State.drive_xfer (e : SpiEvent) (s : State) : (s.drive e).xfer = s.xfer := rfl
@[simp] theorem State.drive_seq (e : SpiEvent) (s : State) : (s.drive e).seq = s.seq := rfl
@[simp] theorem State.drive_ch (e : SpiEvent) (s : State) : (s.drive e).ch = s.ch := rfl
@[simp] theorem State.drive_hi (e : SpiEvent) (s : State) : (s.drive e).hi = s.hi := rfl
@[simp] theorem State.drive_lo (e : SpiEvent) (s : State) : (s.drive e).lo = s.lo := rfl
@[simp] theorem State.drive_raw (e : SpiEvent) (s : State) : (s.drive e).raw = s.raw := rfl
@[simp] theorem State.drive_value (e : SpiEvent) (s : State) : (s.drive e).value = s.value := rfl
@[simp] theorem State.drive_sdone (e : SpiEvent) (s : State) : (s.drive e).sdone = s.sdone := rfl
@[simp] theorem State.drive_fmtIn (e : SpiEvent) (s : State) : (s.drive e).fmtIn = s.fmtIn := rfl
@[simp] theorem State.drive_fact (e : SpiEvent) (s : State) : (s.drive e).fact = s.fact := rfl
@[simp] theorem State.drive_fpend (e : SpiEvent) (s : State) : (s.drive e).fpend = s.fpend := rfl
@[simp] theorem State.drive_fvalid (e : SpiEvent) (s : State) : (s.drive e).fvalid = s.fvalid := rfl
@[simp] theorem State.drive_fdata (e : SpiEvent) (s : State) : (s.drive e).fdata = s.fdata := rfl
@[simp] theorem State.drive_flast (e : SpiEvent) (s : State) : (s.drive e).flast = s.flast := rfl
@[simp] theorem State.drive_eIllop (e : SpiEvent) (s : State) : (s.drive e).eIllop = s.eIllop := rfl
@[simp] theorem State.drive_eBusy (e : SpiEvent) (s : State) : (s.drive e).eBusy = s.eBusy := rfl
@[simp] theorem State.drive_eState (e : SpiEvent) (s : State) : (s.drive e).eState = s.eState := rfl
@[simp] theorem State.drive_eInvch (e : SpiEvent) (s : State) : (s.drive e).eInvch = s.eInvch := rfl
@[simp] theorem State.drive_trace (e : SpiEvent) (s : State) : (s.drive e).trace = s.trace ++ [e] := rfl
@[simp] theorem State.drive_reads (e : SpiEvent) (s : State) : (s.drive e).reads = s.reads := rfl
@[simp] theorem State.drive_inputs (e : SpiEvent) (s : State) : (s.drive e).inputs = s.inputs := rfl
@[simp] theorem State.drive_draws (e : SpiEvent) (s : State) : (s.drive e).draws = s.draws := rfl
@[simp] theorem State.drive_busy (e : SpiEvent) (s : State) : (s.drive e).busy = s.busy := rfl

/-! ### `State.lowerCsN` -/

@[simp] theorem State.lowerCsN_cpol (s : State) : s.lowerCsN.cpol = s.cpol := rfl
@[simp] theorem State.lowerCsN_cpha (s : State) : s.lowerCsN.cpha = s.cpha := rfl
@[simp] theorem State.lowerCsN_clkdiv (s : State) : s.lowerCsN.clkdiv = s.clkdiv := rfl
@[simp] theorem State.lowerCsN_cs (s : State) : s.lowerCsN.cs = true := rfl
@[simp] theorem State.lowerCsN_tc (s : State) : s.lowerCsN.tc = s.tc := rfl
@[simp] theorem State.lowerCsN_rx (s : State) : s.lowerCsN.rx = s.rx := rfl
@[simp] theorem State.lowerCsN_xfer (s : State) : s.lowerCsN.xfer = s.xfer := rfl
@[simp] theorem State.lowerCsN_seq (s : State) : s.lowerCsN.seq = s.seq := rfl
@[simp] theorem State.lowerCsN_ch (s : State) : s.lowerCsN.ch = s.ch := rfl
@[simp] theorem State.lowerCsN_hi (s : State) : s.lowerCsN.hi = s.hi := rfl
@[simp] theorem State.lowerCsN_lo (s : State) : s.lowerCsN.lo = s.lo := rfl
@[simp] theorem State.lowerCsN_raw (s : State) : s.lowerCsN.raw = s.raw := rfl
@[simp] theorem State.lowerCsN_value (s : State) : s.lowerCsN.value = s.value := rfl
@[simp] theorem State.lowerCsN_sdone (s : State) : s.lowerCsN.sdone = s.sdone := rfl
@[simp] theorem State.lowerCsN_fmtIn (s : State) : s.lowerCsN.fmtIn = s.fmtIn := rfl
@[simp] theorem State.lowerCsN_fact (s : State) : s.lowerCsN.fact = s.fact := rfl
@[simp] theorem State.lowerCsN_fpend (s : State) : s.lowerCsN.fpend = s.fpend := rfl
@[simp] theorem State.lowerCsN_fvalid (s : State) : s.lowerCsN.fvalid = s.fvalid := rfl
@[simp] theorem State.lowerCsN_fdata (s : State) : s.lowerCsN.fdata = s.fdata := rfl
@[simp] theorem State.lowerCsN_flast (s : State) : s.lowerCsN.flast = s.flast := rfl
@[simp] theorem State.lowerCsN_eIllop (s : State) : s.lowerCsN.eIllop = s.eIllop := rfl
@[simp] theorem State.lowerCsN_eBusy (s : State) : s.lowerCsN.eBusy = s.eBusy := rfl
@[simp] theorem State.lowerCsN_eState (s : State) : s.lowerCsN.eState = s.eState := rfl
@[simp] theorem State.lowerCsN_eInvch (s : State) : s.lowerCsN.eInvch = s.eInvch := rfl
@[simp] theorem State.lowerCsN_trace (s : State) : s.lowerCsN.trace = s.trace ++ [.csLow] := rfl
@[simp] theorem State.lowerCsN_reads (s : State) : s.lowerCsN.reads = s.reads := rfl
@[simp] theorem State.lowerCsN_inputs (s : State) : s.lowerCsN.inputs = s.inputs := rfl
@[simp] theorem State.lowerCsN_draws (s : State) : s.lowerCsN.draws = s.draws := rfl
@[simp] theorem State.lowerCsN_busy (s : State) : s.lowerCsN.busy = s.busy := rfl

/-! ### `State.raiseCsN` -/

@[simp] theorem State.raiseCsN_cpol (s : State) : s.raiseCsN.cpol = s.cpol := rfl
@[simp] theorem State.raiseCsN_cpha (s : State) : s.raiseCsN.cpha = s.cpha := rfl
@[simp] theorem State.raiseCsN_clkdiv (s : State) : s.raiseCsN.clkdiv = s.clkdiv := rfl
@[simp] theorem State.raiseCsN_cs (s : State) : s.raiseCsN.cs = false := rfl
@[simp] theorem State.raiseCsN_tc (s : State) : s.raiseCsN.tc = s.tc := rfl
@[simp] theorem State.raiseCsN_rx (s : State) : s.raiseCsN.rx = s.rx := rfl
@[simp] theorem State.raiseCsN_xfer (s : State) : s.raiseCsN.xfer = s.xfer := rfl
@[simp] theorem State.raiseCsN_seq (s : State) : s.raiseCsN.seq = s.seq := rfl
@[simp] theorem State.raiseCsN_ch (s : State) : s.raiseCsN.ch = s.ch := rfl
@[simp] theorem State.raiseCsN_hi (s : State) : s.raiseCsN.hi = s.hi := rfl
@[simp] theorem State.raiseCsN_lo (s : State) : s.raiseCsN.lo = s.lo := rfl
@[simp] theorem State.raiseCsN_raw (s : State) : s.raiseCsN.raw = s.raw := rfl
@[simp] theorem State.raiseCsN_value (s : State) : s.raiseCsN.value = s.value := rfl
@[simp] theorem State.raiseCsN_sdone (s : State) : s.raiseCsN.sdone = s.sdone := rfl
@[simp] theorem State.raiseCsN_fmtIn (s : State) : s.raiseCsN.fmtIn = s.fmtIn := rfl
@[simp] theorem State.raiseCsN_fact (s : State) : s.raiseCsN.fact = s.fact := rfl
@[simp] theorem State.raiseCsN_fpend (s : State) : s.raiseCsN.fpend = s.fpend := rfl
@[simp] theorem State.raiseCsN_fvalid (s : State) : s.raiseCsN.fvalid = s.fvalid := rfl
@[simp] theorem State.raiseCsN_fdata (s : State) : s.raiseCsN.fdata = s.fdata := rfl
@[simp] theorem State.raiseCsN_flast (s : State) : s.raiseCsN.flast = s.flast := rfl
@[simp] theorem State.raiseCsN_eIllop (s : State) : s.raiseCsN.eIllop = s.eIllop := rfl
@[simp] theorem State.raiseCsN_eBusy (s : State) : s.raiseCsN.eBusy = s.eBusy := rfl
@[simp] theorem State.raiseCsN_eState (s : State) : s.raiseCsN.eState = s.eState := rfl
@[simp] theorem State.raiseCsN_eInvch (s : State) : s.raiseCsN.eInvch = s.eInvch := rfl
@[simp] theorem State.raiseCsN_trace (s : State) : s.raiseCsN.trace = s.trace ++ [.csHigh] := rfl
@[simp] theorem State.raiseCsN_reads (s : State) : s.raiseCsN.reads = s.reads := rfl
@[simp] theorem State.raiseCsN_inputs (s : State) : s.raiseCsN.inputs = s.inputs := rfl
@[simp] theorem State.raiseCsN_draws (s : State) : s.raiseCsN.draws = s.draws := rfl
@[simp] theorem State.raiseCsN_busy (s : State) : s.raiseCsN.busy = s.busy := rfl

/-! ### `State.clearErrors` -/

@[simp] theorem State.clearErrors_cpol (s : State) : s.clearErrors.cpol = s.cpol := rfl
@[simp] theorem State.clearErrors_cpha (s : State) : s.clearErrors.cpha = s.cpha := rfl
@[simp] theorem State.clearErrors_clkdiv (s : State) : s.clearErrors.clkdiv = s.clkdiv := rfl
@[simp] theorem State.clearErrors_cs (s : State) : s.clearErrors.cs = s.cs := rfl
@[simp] theorem State.clearErrors_tc (s : State) : s.clearErrors.tc = s.tc := rfl
@[simp] theorem State.clearErrors_rx (s : State) : s.clearErrors.rx = s.rx := rfl
@[simp] theorem State.clearErrors_xfer (s : State) : s.clearErrors.xfer = s.xfer := rfl
@[simp] theorem State.clearErrors_seq (s : State) : s.clearErrors.seq = s.seq := rfl
@[simp] theorem State.clearErrors_ch (s : State) : s.clearErrors.ch = s.ch := rfl
@[simp] theorem State.clearErrors_hi (s : State) : s.clearErrors.hi = s.hi := rfl
@[simp] theorem State.clearErrors_lo (s : State) : s.clearErrors.lo = s.lo := rfl
@[simp] theorem State.clearErrors_raw (s : State) : s.clearErrors.raw = s.raw := rfl
@[simp] theorem State.clearErrors_value (s : State) : s.clearErrors.value = s.value := rfl
@[simp] theorem State.clearErrors_sdone (s : State) : s.clearErrors.sdone = s.sdone := rfl
@[simp] theorem State.clearErrors_fmtIn (s : State) : s.clearErrors.fmtIn = s.fmtIn := rfl
@[simp] theorem State.clearErrors_fact (s : State) : s.clearErrors.fact = s.fact := rfl
@[simp] theorem State.clearErrors_fpend (s : State) : s.clearErrors.fpend = s.fpend := rfl
@[simp] theorem State.clearErrors_fvalid (s : State) : s.clearErrors.fvalid = s.fvalid := rfl
@[simp] theorem State.clearErrors_fdata (s : State) : s.clearErrors.fdata = s.fdata := rfl
@[simp] theorem State.clearErrors_flast (s : State) : s.clearErrors.flast = s.flast := rfl
@[simp] theorem State.clearErrors_eIllop (s : State) : s.clearErrors.eIllop = false := rfl
@[simp] theorem State.clearErrors_eBusy (s : State) : s.clearErrors.eBusy = false := rfl
@[simp] theorem State.clearErrors_eState (s : State) : s.clearErrors.eState = false := rfl
@[simp] theorem State.clearErrors_eInvch (s : State) : s.clearErrors.eInvch = false := rfl
@[simp] theorem State.clearErrors_trace (s : State) : s.clearErrors.trace = s.trace := rfl
@[simp] theorem State.clearErrors_reads (s : State) : s.clearErrors.reads = s.reads := rfl
@[simp] theorem State.clearErrors_inputs (s : State) : s.clearErrors.inputs = s.inputs := rfl
@[simp] theorem State.clearErrors_draws (s : State) : s.clearErrors.draws = s.draws := rfl
@[simp] theorem State.clearErrors_busy (s : State) : s.clearErrors.busy = s.busy := rfl

/-! ### `State.setError` -/

@[simp] theorem State.setError_cpol (e : ErrorCode) (s : State) : (s.setError e).cpol = s.cpol := by
  cases e <;> rfl
@[simp] theorem State.setError_cpha (e : ErrorCode) (s : State) : (s.setError e).cpha = s.cpha := by
  cases e <;> rfl
@[simp] theorem State.setError_clkdiv (e : ErrorCode) (s : State) : (s.setError e).clkdiv = s.clkdiv := by
  cases e <;> rfl
@[simp] theorem State.setError_cs (e : ErrorCode) (s : State) : (s.setError e).cs = s.cs := by
  cases e <;> rfl
@[simp] theorem State.setError_tc (e : ErrorCode) (s : State) : (s.setError e).tc = s.tc := by
  cases e <;> rfl
@[simp] theorem State.setError_rx (e : ErrorCode) (s : State) : (s.setError e).rx = s.rx := by
  cases e <;> rfl
@[simp] theorem State.setError_xfer (e : ErrorCode) (s : State) : (s.setError e).xfer = s.xfer := by
  cases e <;> rfl
@[simp] theorem State.setError_seq (e : ErrorCode) (s : State) : (s.setError e).seq = s.seq := by
  cases e <;> rfl
@[simp] theorem State.setError_ch (e : ErrorCode) (s : State) : (s.setError e).ch = s.ch := by
  cases e <;> rfl
@[simp] theorem State.setError_hi (e : ErrorCode) (s : State) : (s.setError e).hi = s.hi := by
  cases e <;> rfl
@[simp] theorem State.setError_lo (e : ErrorCode) (s : State) : (s.setError e).lo = s.lo := by
  cases e <;> rfl
@[simp] theorem State.setError_raw (e : ErrorCode) (s : State) : (s.setError e).raw = s.raw := by
  cases e <;> rfl
@[simp] theorem State.setError_value (e : ErrorCode) (s : State) : (s.setError e).value = s.value := by
  cases e <;> rfl
@[simp] theorem State.setError_sdone (e : ErrorCode) (s : State) : (s.setError e).sdone = s.sdone := by
  cases e <;> rfl
@[simp] theorem State.setError_fmtIn (e : ErrorCode) (s : State) : (s.setError e).fmtIn = s.fmtIn := by
  cases e <;> rfl
@[simp] theorem State.setError_fact (e : ErrorCode) (s : State) : (s.setError e).fact = s.fact := by
  cases e <;> rfl
@[simp] theorem State.setError_fpend (e : ErrorCode) (s : State) : (s.setError e).fpend = s.fpend := by
  cases e <;> rfl
@[simp] theorem State.setError_fvalid (e : ErrorCode) (s : State) : (s.setError e).fvalid = s.fvalid := by
  cases e <;> rfl
@[simp] theorem State.setError_fdata (e : ErrorCode) (s : State) : (s.setError e).fdata = s.fdata := by
  cases e <;> rfl
@[simp] theorem State.setError_flast (e : ErrorCode) (s : State) : (s.setError e).flast = s.flast := by
  cases e <;> rfl
@[simp] theorem State.setError_trace (e : ErrorCode) (s : State) : (s.setError e).trace = s.trace := by
  cases e <;> rfl
@[simp] theorem State.setError_reads (e : ErrorCode) (s : State) : (s.setError e).reads = s.reads := by
  cases e <;> rfl
@[simp] theorem State.setError_inputs (e : ErrorCode) (s : State) : (s.setError e).inputs = s.inputs := by
  cases e <;> rfl
@[simp] theorem State.setError_draws (e : ErrorCode) (s : State) : (s.setError e).draws = s.draws := by
  cases e <;> rfl
@[simp] theorem State.setError_eIllop (e : ErrorCode) (s : State) :
    (s.setError e).eIllop = (decide (e = .illegalCommand) || s.eIllop) := by
  cases e <;> rfl
@[simp] theorem State.setError_eBusy (e : ErrorCode) (s : State) :
    (s.setError e).eBusy = (decide (e = .busy) || s.eBusy) := by
  cases e <;> rfl
@[simp] theorem State.setError_eState (e : ErrorCode) (s : State) :
    (s.setError e).eState = (decide (e = .badState) || s.eState) := by
  cases e <;> rfl
@[simp] theorem State.setError_eInvch (e : ErrorCode) (s : State) :
    (s.setError e).eInvch = (decide (e = .invalidChannel) || s.eInvch) := by
  cases e <;> rfl
@[simp] theorem State.setError_busy (e : ErrorCode) (s : State) : (s.setError e).busy = s.busy := by
  cases e <;> rfl

/-- Of the flags, `setError` sets that of its error only. -/
@[simp] theorem State.setError_errorFlag (e f : ErrorCode) (s : State) :
    (s.setError e).errorFlag f = (decide (e = f) || s.errorFlag f) := by
  cases e <;> cases f <;> rfl

/-! ### `State.popFmtData` -/

@[simp] theorem State.popFmtData_cpol (s : State) : s.popFmtData.cpol = s.cpol := by
  unfold State.popFmtData; split <;> rfl
@[simp] theorem State.popFmtData_cpha (s : State) : s.popFmtData.cpha = s.cpha := by
  unfold State.popFmtData; split <;> rfl
@[simp] theorem State.popFmtData_clkdiv (s : State) : s.popFmtData.clkdiv = s.clkdiv := by
  unfold State.popFmtData; split <;> rfl
@[simp] theorem State.popFmtData_cs (s : State) : s.popFmtData.cs = s.cs := by
  unfold State.popFmtData; split <;> rfl
@[simp] theorem State.popFmtData_tc (s : State) : s.popFmtData.tc = s.tc := by
  unfold State.popFmtData; split <;> rfl
@[simp] theorem State.popFmtData_rx (s : State) : s.popFmtData.rx = s.rx := by
  unfold State.popFmtData; split <;> rfl
@[simp] theorem State.popFmtData_xfer (s : State) : s.popFmtData.xfer = s.xfer := by
  unfold State.popFmtData; split <;> rfl
@[simp] theorem State.popFmtData_seq (s : State) : s.popFmtData.seq = s.seq := by
  unfold State.popFmtData; split <;> rfl
@[simp] theorem State.popFmtData_ch (s : State) : s.popFmtData.ch = s.ch := by
  unfold State.popFmtData; split <;> rfl
@[simp] theorem State.popFmtData_hi (s : State) : s.popFmtData.hi = s.hi := by
  unfold State.popFmtData; split <;> rfl
@[simp] theorem State.popFmtData_lo (s : State) : s.popFmtData.lo = s.lo := by
  unfold State.popFmtData; split <;> rfl
@[simp] theorem State.popFmtData_raw (s : State) : s.popFmtData.raw = s.raw := by
  unfold State.popFmtData; split <;> rfl
@[simp] theorem State.popFmtData_value (s : State) : s.popFmtData.value = s.value := by
  unfold State.popFmtData; split <;> rfl
@[simp] theorem State.popFmtData_sdone (s : State) : s.popFmtData.sdone = s.sdone := by
  unfold State.popFmtData; split <;> rfl
@[simp] theorem State.popFmtData_fmtIn (s : State) : s.popFmtData.fmtIn = s.fmtIn := by
  unfold State.popFmtData; split <;> rfl
@[simp] theorem State.popFmtData_fpend (s : State) : s.popFmtData.fpend = s.fpend := by
  unfold State.popFmtData; split <;> rfl
@[simp] theorem State.popFmtData_eIllop (s : State) : s.popFmtData.eIllop = s.eIllop := by
  unfold State.popFmtData; split <;> rfl
@[simp] theorem State.popFmtData_eBusy (s : State) : s.popFmtData.eBusy = s.eBusy := by
  unfold State.popFmtData; split <;> rfl
@[simp] theorem State.popFmtData_eState (s : State) : s.popFmtData.eState = s.eState := by
  unfold State.popFmtData; split <;> rfl
@[simp] theorem State.popFmtData_eInvch (s : State) : s.popFmtData.eInvch = s.eInvch := by
  unfold State.popFmtData; split <;> rfl
@[simp] theorem State.popFmtData_trace (s : State) : s.popFmtData.trace = s.trace := by
  unfold State.popFmtData; split <;> rfl
@[simp] theorem State.popFmtData_reads (s : State) : s.popFmtData.reads = s.reads := by
  unfold State.popFmtData; split <;> rfl
@[simp] theorem State.popFmtData_inputs (s : State) : s.popFmtData.inputs = s.inputs := by
  unfold State.popFmtData; split <;> rfl
@[simp] theorem State.popFmtData_draws (s : State) : s.popFmtData.draws = s.draws := by
  unfold State.popFmtData; split <;> rfl
@[simp] theorem State.popFmtData_fvalid (s : State) : s.popFmtData.fvalid = false := by
  unfold State.popFmtData; split <;> simp_all
@[simp] theorem State.popFmtData_fact (s : State) :
    s.popFmtData.fact = (s.fact && !(s.fvalid && s.flast)) := by
  unfold State.popFmtData; split <;> simp_all

/-- Without a held byte nothing is popped. -/
theorem State.popFmtData_of_not_fvalid (s : State) (h : s.fvalid = false) : s.popFmtData = s := by
  simp [State.popFmtData, h]

/-- A held byte is popped, and the LAST one ends the rendering. -/
theorem State.popFmtData_of_fvalid (s : State) (h : s.fvalid = true) :
    s.popFmtData = { s with fact := s.fact && !s.flast, fvalid := false, fdata := 0, flast := false } := by
  simp [State.popFmtData, h]

/-! ### The bits of the register words -/

/-- A bit of a word whose lowest bit is appended. -/
theorem getLsbD_append_ofBool {m : Nat} (x : BitVec m) (b : Bool) (n : Nat) :
    (x ++ BitVec.ofBool b).getLsbD n = if n = 0 then b else x.getLsbD (n - 1) := by
  rw [BitVec.getLsbD_append]
  rcases n with _ | n <;> simp

/-- A bit of STATUS (R21). -/
theorem State.getLsbD_statusWord (s : State) (n : Nat) :
    s.statusWord.getLsbD n =
      match n with
      | 0 => s.tc
      | 1 => s.busy
      | 2 => s.cs
      | 3 => s.sdone
      | 4 => s.fvalid
      | 5 => s.fact
      | 8 => s.eIllop
      | 9 => s.eBusy
      | 10 => s.eState
      | 11 => s.eInvch
      | _ => false := by
  have h : s.statusWord.getLsbD n =
      (0#20 ++ BitVec.ofBool s.eInvch ++ BitVec.ofBool s.eState ++ BitVec.ofBool s.eBusy
        ++ BitVec.ofBool s.eIllop ++ 0#2 ++ BitVec.ofBool s.fact ++ BitVec.ofBool s.fvalid
        ++ BitVec.ofBool s.sdone ++ BitVec.ofBool s.cs ++ BitVec.ofBool s.busy
        ++ BitVec.ofBool s.tc).getLsbD n := rfl
  rw [h]
  simp only [getLsbD_append_ofBool]
  rcases n with _ | _ | _ | _ | _ | _ | n <;> try rfl
  rw [BitVec.getLsbD_append]
  simp only [getLsbD_append_ofBool]
  rcases n with _ | _ | _ | _ | _ | _ | n <;> simp

/-- CTRL as a number (R20). -/
theorem State.ctrlWord_toNat (s : State) :
    s.ctrlWord.toNat = s.clkdiv.toNat * 256 + s.cpha.toNat * 2 + s.cpol.toNat := by
  have h : ∀ (a b : Bool) (c : Byte),
      (0#16 ++ c ++ 0#6 ++ BitVec.ofBool b ++ BitVec.ofBool a).toNat
        = c.toNat * 256 + b.toNat * 2 + a.toNat := by decide
  exact h _ _ _

/-- FMT_DATA as a number (R28). -/
theorem State.fmtDataWord_toNat (s : State) :
    s.fmtDataWord.toNat = s.fdata.toNat + s.fvalid.toNat * 256 + s.flast.toNat * 512 := by
  have h : ∀ (a b : Bool) (c : Byte),
      (0#22 ++ BitVec.ofBool a ++ BitVec.ofBool b ++ c).toNat
        = c.toNat + b.toNat * 256 + a.toNat * 512 := by decide
  exact h _ _ _

/-- BYTE of FMT_DATA (R28). -/
theorem State.fmtDataWord_byte (s : State) : s.fmtDataWord.extractLsb' 0 8 = s.fdata := by
  apply BitVec.eq_of_getLsbD_eq
  intro n hn
  simp only [State.fmtDataWord, BitVec.getLsbD_append, BitVec.getLsbD_extractLsb', Nat.zero_add, hn]
  simp

/-- VALID of FMT_DATA (R28). -/
theorem State.fmtDataWord_valid (s : State) : s.fmtDataWord.getLsbD 8 = s.fvalid := by
  simp only [State.fmtDataWord, BitVec.getLsbD_append]
  simp

/-- LAST of FMT_DATA (R28). -/
theorem State.fmtDataWord_last (s : State) : s.fmtDataWord.getLsbD 9 = s.flast := by
  simp only [State.fmtDataWord, BitVec.getLsbD_append]
  simp

/-! ### BUSY -/

/-- The block is not BUSY exactly when no unit holds the sequencer (R18). -/
theorem State.busy_eq_false_iff (s : State) :
    s.busy = false ↔ s.xfer = none ∧ s.seq = .idle ∧ s.fact = false := by
  simp [State.busy, and_assoc]

/-- The block is BUSY exactly when a unit holds the sequencer (R18). -/
theorem State.busy_eq_true_iff (s : State) :
    s.busy = true ↔ s.xfer ≠ none ∨ s.seq ≠ .idle ∨ s.fact = true := by
  simp [State.busy, or_assoc, Option.isSome_iff_ne_none]

end Sys2Proof.Machine
end

