-- ==== Sys2Proof/Laws/Engine.lean ====
section
/-! SUPPORT. Everything that a turn of the engine can do. -/

namespace Sys2Proof.Machine

/-- EMIT is enabled exactly when a rendering is active, no byte is held and one is pending (R93). -/
theorem emitStep_eq_some (s t : State) :
    emitStep s = some t ↔ s.fact = true ∧ s.fvalid = false
      ∧ ∃ b rest, s.fpend = b :: rest ∧ t = emitByte b rest s := by
  unfold emitStep
  cases s.fact <;> cases s.fvalid <;> cases s.fpend <;> simp [eq_comm]

theorem emitStep_eq_none (s : State) :
    emitStep s = none ↔ (s.fact = true → s.fvalid = false → s.fpend = []) := by
  unfold emitStep
  cases s.fact <;> cases s.fvalid <;> cases s.fpend <;> simp

@[simp] theorem acqStep_eq_none (miso : Byte) (s : State) : acqStep miso s = none ↔ s.seq = .idle := by
  unfold acqStep
  cases s.seq <;> simp

@[simp] theorem xdoneStep_eq_none (miso : Byte) (s : State) : xdoneStep miso s = none ↔ s.xfer = none := by
  simp [xdoneStep]

/-- With an exchange in flight the engine's turn completes it (R70). -/
theorem engineTurn_of_xfer {s : State} {m : Byte} (miso : Byte) (h : s.xfer = some m) :
    engineTurn miso s = xdone m miso s := by
  simp [engineTurn, engineStep, xdoneStep, h]

/-- With no exchange in flight a turn is that of the ACQ unit, where it has one. -/
theorem engineTurn_of_acqStep {s t : State} {miso : Byte} (hx : s.xfer = none)
    (h : acqStep miso s = some t) : engineTurn miso s = t := by
  simp [engineTurn, engineStep, xdoneStep, hx, h]

/-- With no exchange and no sample in flight a turn is that of the FMT unit, where it has one. -/
theorem engineTurn_of_idle {s : State} {miso : Byte} (hx : s.xfer = none) (hq : s.seq = .idle) :
    engineTurn miso s = (emitStep s).getD s := by
  simp [engineTurn, engineStep, xdoneStep, hx, acqStep, hq]

/-- Everything that a turn of the engine can do. -/
theorem engineTurn_cases (miso : Byte) (s : State) :
    (∃ m, s.xfer = some m ∧ engineTurn miso s = xdone m miso s)
    ∨ (s.xfer = none ∧ s.seq = .cslo ∧ engineTurn miso s = phaseCslo s)
    ∨ (s.xfer = none ∧ s.seq = .x1 ∧ engineTurn miso s = phaseX1 miso s)
    ∨ (s.xfer = none ∧ s.seq = .x2 ∧ engineTurn miso s = phaseX2 miso s)
    ∨ (s.xfer = none ∧ s.seq = .x3 ∧ engineTurn miso s = phaseX3 miso s)
    ∨ (s.xfer = none ∧ s.seq = .cshi ∧ engineTurn miso s = phaseCshi s)
    ∨ (s.xfer = none ∧ s.seq = .scale ∧ engineTurn miso s = phaseScale s)
    ∨ (s.xfer = none ∧ s.seq = .idle ∧ s.fact = true ∧ s.fvalid = false
        ∧ ∃ b rest, s.fpend = b :: rest ∧ engineTurn miso s = emitByte b rest s)
    ∨ (s.xfer = none ∧ s.seq = .idle ∧ emitStep s = none ∧ engineTurn miso s = s) := by
  cases hx : s.xfer with
  | some m => exact .inl ⟨m, rfl, engineTurn_of_xfer miso hx⟩
  | none =>
    cases hq : s.seq with
    | idle =>
      cases he : emitStep s with
      | none => simp [engineTurn_of_idle hx hq, he]
      | some t =>
        obtain ⟨hf, hv, b, rest, hp, rfl⟩ := (emitStep_eq_some s t).mp he
        simp [engineTurn_of_idle hx hq, he, hf, hv, hp]
    | _ => simp [engineTurn, engineStep, xdoneStep, acqStep, hx, hq]

/-- A turn of the engine takes no turn of the environment. -/
@[simp] theorem engineTurn_inputs (miso : Byte) (s : State) :
    (engineTurn miso s).inputs = s.inputs := by
  obtain ⟨_, _, h⟩ | ⟨_, _, h⟩ | ⟨_, _, h⟩ | ⟨_, _, h⟩ | ⟨_, _, h⟩ | ⟨_, _, h⟩ | ⟨_, _, h⟩
    | ⟨_, _, _, _, _, _, _, h⟩ | ⟨_, _, _, h⟩ := engineTurn_cases miso s <;> rw [h] <;> rfl

end Sys2Proof.Machine
end

