-- ==== Sys2Proof/Laws/Ops.lean ====
section
/-! SUPPORT. Everything that the shared operations can answer. -/

namespace Sys2Proof.Machine

/-- A read's answer adds its value to what the host has read, and does nothing else. -/
@[simp] theorem answer_eq_next (v : Word) (s t : State) : answer v s = .next t ↔ t = s.returned v := by
  simp [answer, eq_comm]

/-- A rejection sets its flag and does nothing else (R108). -/
@[simp] theorem raise_eq_next (e : ErrorCode) (s t : State) : raise e s = .next t ↔ t = s.setError e := by
  simp [raise, eq_comm]

/-- An ignored write leaves the state as it is. -/
@[simp] theorem ignored_eq_next (s t : State) : ignored s = .next t ↔ t = s := by
  simp [ignored, eq_comm]

/-- The Busy check rejects while BUSY and else lets the operation's effect happen (R111). -/
theorem unlessBusy_eq_next (s t u : State) :
    unlessBusy s t = .next u ↔ (s.busy = true ∧ u = s.setError .busy) ∨ (s.busy = false ∧ u = t) := by
  unfold unlessBusy raise
  cases s.busy <;> simp [eq_comm]

theorem unlessBusy_of_busy {s : State} (h : s.busy = true) (t : State) :
    unlessBusy s t = .next (s.setError .busy) := by simp [unlessBusy, h, raise]

theorem unlessBusy_of_not_busy {s : State} (h : s.busy = false) (t : State) :
    unlessBusy s t = .next t := by simp [unlessBusy, h]

/-- SAMPLE's outcomes, in the order of its checks (R74, R114). -/
theorem execSample_eq_next (c : Byte) (s t : State) :
    execSample c s = .next t ↔
      (s.busy = true ∧ t = s.setError .busy)
      ∨ (s.busy = false ∧ s.cs = true ∧ t = s.setError .badState)
      ∨ (s.busy = false ∧ s.cs = false ∧ 8 ≤ c.toNat ∧ t = s.setError .invalidChannel)
      ∨ (s.busy = false ∧ s.cs = false ∧ c.toNat < 8
          ∧ t = { s with ch := c.extractLsb' 0 3, sdone := false, seq := .cslo }) := by
  unfold execSample raise
  cases s.busy <;> cases s.cs <;> simp [Config.channels, eq_comm (b := t)]
  rcases Nat.lt_or_ge c.toNat 8 with h | h
  · simp [h, Nat.not_le.mpr h, eq_comm]
  · simp [h, Nat.not_lt.mpr h, eq_comm (b := t)]

end Sys2Proof.Machine
end

