-- ==== Sys2Proof/Laws/Exec.lean ====
section
/-! SUPPORT. Everything that a host transaction can do to the state, said once: the cases of
`exec_effect` are cited instead of unfolding the meanings. -/

namespace Sys2Proof.Machine

/-- The transactions that are rejected while BUSY (R111). -/
def NeedsSequencer (i : Instr) : Prop :=
  (∃ w, i = .wrCtrl w) ∨ (∃ w, i = .tx w) ∨ i = .csAssert ∨ i = .csDeassert
    ∨ (∃ c, i = .sample c) ∨ ∃ src, i = .format src

/-- What the transaction `i` makes of the state `s`, with the conditions under which it does. -/
inductive ExecEffect (s : State) : Instr → State → Prop
  /-- a read without a side effect -/
  | read (i : Instr) (v : Word) (hi : i ≠ .rdStatus ∧ i ≠ .rdFmtData) (hn : ¬ NeedsSequencer i) :
      ExecEffect s i (s.returned v)
  | rdStatus : ExecEffect s .rdStatus (State.returned s.statusWord { s with tc := false })
  | rdFmtData : ExecEffect s .rdFmtData (s.popFmtData.returned s.fmtDataWord)
  /-- an ignored write, NOP, or a chip-select command that finds the pin as it wants it -/
  | unchanged (i : Instr) (hi : i ≠ .clrerr ∧ i ≠ .rdStatus ∧ i ≠ .rdFmtData)
      (hb : NeedsSequencer i → s.busy = false ∧ (i = .csAssert ∨ i = .csDeassert)) :
      ExecEffect s i s
  | clrerr : ExecEffect s .clrerr s.clearErrors
  | wrFmtIn (w : Word) : ExecEffect s (.wrFmtIn w) { s with fmtIn := w }
  | illegal (w : Word) : ExecEffect s (.cmdIllegal w) (s.setError .illegalCommand)
  | busy (i : Instr) (hb : s.busy = true) (hi : NeedsSequencer i) :
      ExecEffect s i (s.setError .busy)
  | badState (c : Byte) (hb : s.busy = false) (hc : s.cs = true) :
      ExecEffect s (.sample c) (s.setError .badState)
  | invalidChannel (c : Byte) (hb : s.busy = false) (hc : s.cs = false) (hn : 8 ≤ c.toNat) :
      ExecEffect s (.sample c) (s.setError .invalidChannel)
  | wrCtrl (w : Word) (hb : s.busy = false) :
      ExecEffect s (.wrCtrl w)
        { s with cpol := ctrlCpol w, cpha := ctrlCpha w, clkdiv := ctrlClkdiv w }
  | tx (w : Word) (hb : s.busy = false) :
      ExecEffect s (.tx w) { s with xfer := some (txByte w), tc := false }
  | csAssert (hb : s.busy = false) (hc : s.cs = false) : ExecEffect s .csAssert s.lowerCsN
  | csDeassert (hb : s.busy = false) (hc : s.cs = true) : ExecEffect s .csDeassert s.raiseCsN
  | sample (c : Byte) (hb : s.busy = false) (hc : s.cs = false) (hn : c.toNat < 8) :
      ExecEffect s (.sample c) { s with ch := c.extractLsb' 0 3, sdone := false, seq := .cslo }
  | format (src : FmtSrc) (hb : s.busy = false) :
      ExecEffect s (.format src) { s with fpend := render (formatInput src s), fact := true }

/-- A transaction that answers a next state did one of the things of `ExecEffect`. -/
theorem exec_effect {i : Instr} {s t : State} (h : exec i s = .next t) : ExecEffect s i t := by
  cases i with
  | rdStatus => obtain rfl := (answer_eq_next _ _ _).mp h; exact .rdStatus
  | rdFmtData => obtain rfl := (answer_eq_next _ _ _).mp h; exact .rdFmtData
  | clrerr => cases h; exact .clrerr
  | wrFmtIn w => cases h; exact .wrFmtIn w
  | cmdIllegal w => obtain rfl := (raise_eq_next _ _ _).mp h; exact .illegal w
  | wrCtrl w =>
    obtain ⟨hb, rfl⟩ | ⟨hb, rfl⟩ := (unlessBusy_eq_next _ _ _).mp h
    · exact .busy _ hb (.inl ⟨w, rfl⟩)
    · exact .wrCtrl w hb
  | tx w =>
    obtain ⟨hb, rfl⟩ | ⟨hb, rfl⟩ := (unlessBusy_eq_next _ _ _).mp h
    · exact .busy _ hb (.inr (.inl ⟨w, rfl⟩))
    · exact .tx w hb
  | csAssert =>
    obtain ⟨hb, rfl⟩ | ⟨hb, rfl⟩ := (unlessBusy_eq_next _ _ _).mp h
    · exact .busy _ hb (by simp [NeedsSequencer])
    · split
      · exact .unchanged _ (by simp) (fun _ => ⟨hb, by simp⟩)
      · exact .csAssert hb (by simpa using ‹¬s.cs = true›)
  | csDeassert =>
    obtain ⟨hb, rfl⟩ | ⟨hb, rfl⟩ := (unlessBusy_eq_next _ _ _).mp h
    · exact .busy _ hb (by simp [NeedsSequencer])
    · split
      · exact .csDeassert hb ‹_›
      · exact .unchanged _ (by simp) (fun _ => ⟨hb, by simp⟩)
  | sample c =>
    obtain ⟨hb, rfl⟩ | ⟨hb, hc, rfl⟩ | ⟨hb, hc, hn, rfl⟩ | ⟨hb, hc, hn, rfl⟩ :=
      (execSample_eq_next _ _ _).mp h
    · exact .busy _ hb (by simp [NeedsSequencer])
    · exact .badState c hb hc
    · exact .invalidChannel c hb hc hn
    · exact .sample c hb hc hn
  | format src =>
    obtain ⟨hb, rfl⟩ | ⟨hb, rfl⟩ := (unlessBusy_eq_next _ _ _).mp h
    · exact .busy _ hb (by simp [NeedsSequencer])
    · exact .format src hb
  | nop => obtain rfl := (ignored_eq_next _ _).mp h; exact .unchanged _ (by simp) (by simp [NeedsSequencer])
  | wrStatus w => obtain rfl := (ignored_eq_next _ _).mp h; exact .unchanged _ (by simp) (by simp [NeedsSequencer])
  | wrRxdata w => obtain rfl := (ignored_eq_next _ _).mp h; exact .unchanged _ (by simp) (by simp [NeedsSequencer])
  | wrValue w => obtain rfl := (ignored_eq_next _ _).mp h; exact .unchanged _ (by simp) (by simp [NeedsSequencer])
  | wrFmtData w => obtain rfl := (ignored_eq_next _ _).mp h; exact .unchanged _ (by simp) (by simp [NeedsSequencer])
  | wrUnmapped20 k w => obtain rfl := (ignored_eq_next _ _).mp h; exact .unchanged _ (by simp) (by simp [NeedsSequencer])
  | wrUnmapped40 k w => obtain rfl := (ignored_eq_next _ _).mp h; exact .unchanged _ (by simp) (by simp [NeedsSequencer])
  | wrUnmapped80 k w => obtain rfl := (ignored_eq_next _ _).mp h; exact .unchanged _ (by simp) (by simp [NeedsSequencer])
  | _ => obtain rfl := (answer_eq_next _ _ _).mp h; exact .read _ _ (by simp) (by simp [NeedsSequencer])

end Sys2Proof.Machine
end

