-- ==== Sys2Proof/Laws/PerInstr.lean ====
section
/-! SUPPORT. Per instruction: its word is selected by its row of the opcode map. -/

namespace Sys2Proof.Laws

/-- The word of the instruction is selected by the mask and match of the row with its mnemonic (R50). -/
def WordHasARow.Statement (i : Instr) : Prop :=
  ∃ r ∈ opcodeTable, r.mnemonic = i.mnemonic ∧ r.covers (encode i) = true

/-- A word is selected by a row if the bits under the row's mask are as they should be. -/
theorem covers_of_bits {r : OpcodeRow} {t : TWord}
    (h : ∀ n < 41, (t.getLsbD n && r.mask.getLsbD n) = r.pattern.getLsbD n) : r.covers t = true := by
  simp only [OpcodeRow.covers, beq_iff_eq]
  apply BitVec.eq_of_getLsbD_eq
  intro n hn
  rw [BitVec.getLsbD_and, h n hn]

/-- A word of format R or W is selected by a row that tests WE and OFF only, if its top 9 bits are those
of the row. -/
theorem covers_of_top {r : OpcodeRow} (we : Bool) (off : Byte) (w : Word)
    (hlow : ∀ n < 32, r.mask.getLsbD n = false ∧ r.pattern.getLsbD n = false)
    (hoff : ∀ n < 8, (off.getLsbD n && r.mask.getLsbD (32 + n)) = r.pattern.getLsbD (32 + n))
    (hwe : (we && r.mask.getLsbD 40) = r.pattern.getLsbD 40) : r.covers (mkT we off w) = true := by
  apply covers_of_bits
  intro n hn
  rw [getLsbD_mkT]
  rcases Nat.lt_or_ge n 32 with h1 | h1
  · simp [h1, hlow n h1]
  · rcases Nat.lt_or_ge n 40 with h2 | h2
    · have := hoff (n - 32) (by omega)
      rw [show 32 + (n - 32) = n by omega] at this
      simpa [show ¬ n < 32 by omega, h2] using this
    · obtain rfl : n = 40 := by omega
      simpa using hwe

theorem WordHasARow.rdCtrl : WordHasARow.Statement .rdCtrl := by
  exact ⟨_, List.mem_of_find?_eq_some (p := (·.mnemonic == "RD_CTRL")) (by rfl), rfl,
    covers_of_top _ _ _ (by decide) (by decide) (by decide)⟩

theorem WordHasARow.rdStatus : WordHasARow.Statement .rdStatus := by
  exact ⟨_, List.mem_of_find?_eq_some (p := (·.mnemonic == "RD_STATUS")) (by rfl), rfl,
    covers_of_top _ _ _ (by decide) (by decide) (by decide)⟩

theorem WordHasARow.rdTxdata : WordHasARow.Statement .rdTxdata := by
  exact ⟨_, List.mem_of_find?_eq_some (p := (·.mnemonic == "RD_TXDATA")) (by rfl), rfl,
    covers_of_top _ _ _ (by decide) (by decide) (by decide)⟩

theorem WordHasARow.rdRxdata : WordHasARow.Statement .rdRxdata := by
  exact ⟨_, List.mem_of_find?_eq_some (p := (·.mnemonic == "RD_RXDATA")) (by rfl), rfl,
    covers_of_top _ _ _ (by decide) (by decide) (by decide)⟩

theorem WordHasARow.rdCmd : WordHasARow.Statement .rdCmd := by
  exact ⟨_, List.mem_of_find?_eq_some (p := (·.mnemonic == "RD_CMD")) (by rfl), rfl,
    covers_of_top _ _ _ (by decide) (by decide) (by decide)⟩

theorem WordHasARow.rdValue : WordHasARow.Statement .rdValue := by
  exact ⟨_, List.mem_of_find?_eq_some (p := (·.mnemonic == "RD_VALUE")) (by rfl), rfl,
    covers_of_top _ _ _ (by decide) (by decide) (by decide)⟩

theorem WordHasARow.rdFmtIn : WordHasARow.Statement .rdFmtIn := by
  exact ⟨_, List.mem_of_find?_eq_some (p := (·.mnemonic == "RD_FMT_IN")) (by rfl), rfl,
    covers_of_top _ _ _ (by decide) (by decide) (by decide)⟩

theorem WordHasARow.rdFmtData : WordHasARow.Statement .rdFmtData := by
  exact ⟨_, List.mem_of_find?_eq_some (p := (·.mnemonic == "RD_FMT_DATA")) (by rfl), rfl,
    covers_of_top _ _ _ (by decide) (by decide) (by decide)⟩

theorem WordHasARow.rdUnmapped20 (k : BitVec 3) : WordHasARow.Statement (.rdUnmapped20 k) := by
  exact ⟨_, List.mem_of_find?_eq_some (p := (·.mnemonic == "RD_UNMAPPED_20")) (by rfl), rfl,
    covers_of_top _ _ _ (by decide) (by revert k; decide) (by decide)⟩

theorem WordHasARow.rdUnmapped40 (k : BitVec 4) : WordHasARow.Statement (.rdUnmapped40 k) := by
  exact ⟨_, List.mem_of_find?_eq_some (p := (·.mnemonic == "RD_UNMAPPED_40")) (by rfl), rfl,
    covers_of_top _ _ _ (by decide) (by revert k; decide) (by decide)⟩

theorem WordHasARow.rdUnmapped80 (k : BitVec 5) : WordHasARow.Statement (.rdUnmapped80 k) := by
  exact ⟨_, List.mem_of_find?_eq_some (p := (·.mnemonic == "RD_UNMAPPED_80")) (by rfl), rfl,
    covers_of_top _ _ _ (by decide) (by revert k; decide) (by decide)⟩

theorem WordHasARow.wrCtrl (w : Word) : WordHasARow.Statement (.wrCtrl w) := by
  exact ⟨_, List.mem_of_find?_eq_some (p := (·.mnemonic == "WR_CTRL")) (by rfl), rfl,
    covers_of_top _ _ _ (by decide) (by decide) (by decide)⟩

theorem WordHasARow.wrStatus (w : Word) : WordHasARow.Statement (.wrStatus w) := by
  exact ⟨_, List.mem_of_find?_eq_some (p := (·.mnemonic == "WR_STATUS")) (by rfl), rfl,
    covers_of_top _ _ _ (by decide) (by decide) (by decide)⟩

theorem WordHasARow.tx (w : Word) : WordHasARow.Statement (.tx w) := by
  exact ⟨_, List.mem_of_find?_eq_some (p := (·.mnemonic == "TX")) (by rfl), rfl,
    covers_of_top _ _ _ (by decide) (by decide) (by decide)⟩

theorem WordHasARow.wrRxdata (w : Word) : WordHasARow.Statement (.wrRxdata w) := by
  exact ⟨_, List.mem_of_find?_eq_some (p := (·.mnemonic == "WR_RXDATA")) (by rfl), rfl,
    covers_of_top _ _ _ (by decide) (by decide) (by decide)⟩

theorem WordHasARow.wrValue (w : Word) : WordHasARow.Statement (.wrValue w) := by
  exact ⟨_, List.mem_of_find?_eq_some (p := (·.mnemonic == "WR_VALUE")) (by rfl), rfl,
    covers_of_top _ _ _ (by decide) (by decide) (by decide)⟩

theorem WordHasARow.wrFmtIn (w : Word) : WordHasARow.Statement (.wrFmtIn w) := by
  exact ⟨_, List.mem_of_find?_eq_some (p := (·.mnemonic == "WR_FMT_IN")) (by rfl), rfl,
    covers_of_top _ _ _ (by decide) (by decide) (by decide)⟩

theorem WordHasARow.wrFmtData (w : Word) : WordHasARow.Statement (.wrFmtData w) := by
  exact ⟨_, List.mem_of_find?_eq_some (p := (·.mnemonic == "WR_FMT_DATA")) (by rfl), rfl,
    covers_of_top _ _ _ (by decide) (by decide) (by decide)⟩

theorem WordHasARow.wrUnmapped20 (k : BitVec 3) (w : Word) : WordHasARow.Statement (.wrUnmapped20 k w) := by
  exact ⟨_, List.mem_of_find?_eq_some (p := (·.mnemonic == "WR_UNMAPPED_20")) (by rfl), rfl,
    covers_of_top _ _ _ (by decide) (by revert k; decide) (by decide)⟩

theorem WordHasARow.wrUnmapped40 (k : BitVec 4) (w : Word) : WordHasARow.Statement (.wrUnmapped40 k w) := by
  exact ⟨_, List.mem_of_find?_eq_some (p := (·.mnemonic == "WR_UNMAPPED_40")) (by rfl), rfl,
    covers_of_top _ _ _ (by decide) (by revert k; decide) (by decide)⟩

theorem WordHasARow.wrUnmapped80 (k : BitVec 5) (w : Word) : WordHasARow.Statement (.wrUnmapped80 k w) := by
  exact ⟨_, List.mem_of_find?_eq_some (p := (·.mnemonic == "WR_UNMAPPED_80")) (by rfl), rfl,
    covers_of_top _ _ _ (by decide) (by revert k; decide) (by decide)⟩

theorem WordHasARow.nop : WordHasARow.Statement .nop := by
  exact ⟨_, List.mem_of_find?_eq_some (p := (·.mnemonic == "NOP")) (by rfl), rfl, by decide⟩

theorem WordHasARow.csAssert : WordHasARow.Statement .csAssert := by
  exact ⟨_, List.mem_of_find?_eq_some (p := (·.mnemonic == "CS_ASSERT")) (by rfl), rfl, by decide⟩

theorem WordHasARow.csDeassert : WordHasARow.Statement .csDeassert := by
  exact ⟨_, List.mem_of_find?_eq_some (p := (·.mnemonic == "CS_DEASSERT")) (by rfl), rfl, by decide⟩

theorem WordHasARow.sample (c : Byte) : WordHasARow.Statement (.sample c) := by
  exact ⟨_, List.mem_of_find?_eq_some (p := (·.mnemonic == "SAMPLE")) (by rfl), rfl, by revert c; decide⟩

theorem WordHasARow.format (src : FmtSrc) : WordHasARow.Statement (.format src) := by
  cases src <;> exact ⟨_, List.mem_of_find?_eq_some (p := (·.mnemonic == "FORMAT")) (by rfl), rfl, by decide⟩

theorem WordHasARow.clrerr : WordHasARow.Statement .clrerr := by
  exact ⟨_, List.mem_of_find?_eq_some (p := (·.mnemonic == "CLRERR")) (by rfl), rfl, by decide⟩

theorem WordHasARow.cmdIllegal (w : Word) : WordHasARow.Statement (.cmdIllegal w) := by
  exact ⟨_, List.mem_of_find?_eq_some (p := (·.mnemonic == "CMD_ILLEGAL")) (by rfl), rfl,
    covers_of_top _ _ _ (by decide) (by decide) (by decide)⟩

end Sys2Proof.Laws
end

