-- ==== Sys2Proof/Laws/Step.lean ====
section
/-! SUPPORT. Everything that a step can do, and runs of several steps. -/

namespace Sys2Proof.Machine

/-- What the decoder's answer makes of the host's turn. -/
theorem hostTurn_of_decode {r : Request} {t : TWord} {i : Instr} (s : State)
    (ha : r.toWord = .ok t) (hd : decode t = .ok i) : hostTurn r s = exec i s := by
  simp [hostTurn, ha, hd]

/-- A host turn that answers a next state performed an admitted, decoded transaction. -/
theorem hostTurn_eq_next {r : Request} {s t : State} (h : hostTurn r s = .next t) :
    ∃ u i, r.toWord = .ok u ∧ decode u = .ok i ∧ exec i s = .next t := by
  unfold hostTurn at h
  split at h
  · cases h
  · rename_i u hu
    split at h
    · cases h
    · rename_i i hi
      exact ⟨u, i, hu, hi, h⟩

theorem step_of_host {s : State} {r : Request} {rest : List Input}
    (h : s.inputs = .host r :: rest) : step s = hostTurn r { s with inputs := rest } := by
  simp [step, agentTurn, h]

theorem step_of_engine {s : State} {miso : Byte} {rest : List Input}
    (h : s.inputs = .engine miso :: rest) :
    step s = .next (engineTurn miso { s with inputs := rest }) := by
  simp [step, agentTurn, h]

theorem step_of_no_input {s : State} (h : s.inputs = []) :
    step s = .next (engineTurn (Config.freeMiso s.draws) { s with draws := s.draws + 1 }) := by
  simp [step, agentTurn, h]

/-- Everything that a step can do: a decoded transaction of the host, or a turn of the engine. -/
theorem step_cases {s t : State} (h : step s = .next t) :
    (∃ r rest u i, s.inputs = .host r :: rest ∧ r.toWord = .ok u ∧ decode u = .ok i
        ∧ exec i { s with inputs := rest } = .next t)
    ∨ (∃ miso inputs draws, t = engineTurn miso { s with inputs := inputs, draws := draws }) := by
  match hi : s.inputs with
  | .host r :: rest =>
    rw [step_of_host hi] at h
    obtain ⟨u, i, ha, hd, he⟩ := hostTurn_eq_next h
    exact .inl ⟨r, rest, u, i, rfl, ha, hd, he⟩
  | .engine miso :: rest =>
    rw [step_of_engine hi] at h
    exact .inr ⟨miso, rest, s.draws, by simpa using h.symm⟩
  | [] =>
    rw [step_of_no_input hi] at h
    exact .inr ⟨_, s.inputs, s.draws + 1, by simpa using h.symm⟩

/-! ### Runs -/

@[simp] theorem run_zero (s : State) : core.run 0 s = .next s := rfl

/-- A run of one step and more, by its first step. -/
theorem run_succ (k : Nat) (s : State) :
    core.run (k + 1) s =
      match step s with
      | .next t => core.run k t
      | .fault r => .fault r
      | .refused r => .refused r := by
  cases h : step s <;> simp only [Host.Core.run, core, h]

theorem run_succ_of_next {s t : State} (k : Nat) (h : step s = .next t) :
    core.run (k + 1) s = core.run k t := by
  rw [run_succ, h]

/-- A run of one step and more that goes through takes a step first. -/
theorem run_succ_eq_next {k : Nat} {s u : State} (h : core.run (k + 1) s = .next u) :
    ∃ t, step s = .next t ∧ core.run k t = .next u := by
  rw [run_succ] at h
  split at h
  · exact ⟨_, ‹_›, h⟩
  · cases h
  · cases h

/-- What every step keeps, every run keeps. -/
theorem run_keeps {P : State → Prop} (hstep : ∀ s t, P s → step s = .next t → P t) :
    ∀ (k : Nat) (s t : State), P s → core.run k s = .next t → P t
  | 0, s, t, hp, h => by cases h; exact hp
  | k + 1, s, t, hp, h => by
    obtain ⟨u, hu, hr⟩ := run_succ_eq_next h
    exact run_keeps hstep k u t (hstep s u hp hu) hr

end Sys2Proof.Machine
end

