-- ==== Sys2Proof/Laws/Rendering.lean ====
section
/-! SUPPORT. What a step can do while a rendering is in flight (42_formatter.md section 4), and the
values that the host reads of it. -/

namespace Sys2Proof.Machine

theorem instr_of_decode {r : Request} {u : TWord} {i : Instr} (ha : r.toWord = .ok u)
    (hd : decode u = .ok i) : r.instr = some i := by
  simp [Request.instr, ha, hd]

theorem readsFmtData_of_host {s : State} {r : Request} {rest : List Input} {i : Instr}
    (hin : s.inputs = .host r :: rest) (hi : r.instr = some i) :
    s.readsFmtData = decide (i = .rdFmtData) := by
  simp [State.readsFmtData, hin, hi, Bool.beq_eq_decide_eq]

theorem readsFmtData_of_engine {s : State} {miso : Byte} {rest : List Input}
    (hin : s.inputs = .engine miso :: rest) : s.readsFmtData = false := by
  simp [State.readsFmtData, hin]

/-- What the host reads of the rendering in the step from `s` to `t`. -/
def formattedWord (s t : State) : List Word :=
  if s.readsFmtData then (t.reads.drop s.reads.length).filter (·.getLsbD 8) else []

@[simp] theorem formattedWords_zero (s : State) : formattedWords 0 s = [] := rfl

theorem formattedWords_succ_of_next {s t : State} (k : Nat) (h : step s = .next t) :
    formattedWords (k + 1) s = formattedWord s t ++ formattedWords k t := by
  simp only [formattedWords, h, formattedWord]

/-- A rendering is in flight, alone, and LAST marks the byte that ends it. -/
structure RenderingInFlight (s : State) : Prop where
  active : s.fact = true
  no_exchange : s.xfer = none
  no_sample : s.seq = .idle
  some_undelivered : s.undelivered ≠ []
  held_last : s.fvalid = true → s.flast = decide (s.fpend = [])

theorem RenderingInFlight.busy {s : State} (h : RenderingInFlight s) : s.busy = true := by
  simp [State.busy, h.active]

/-- The step from `s` to `t` by the turn `x` delivers nothing: the rendering stays as it is, but that
after a turn of the engine a byte is held. -/
structure KeepsRendering (x : Input) (s t : State) : Prop where
  no_word : formattedWord s t = []
  undelivered : t.undelivered = s.undelivered
  in_flight : RenderingInFlight t
  held_by_engine : (∃ miso, x = .engine miso) → t.fvalid = true
  held_stays : s.fvalid = true → t.fvalid = true
  no_pop : ¬ (s.readsFmtData = true ∧ s.fvalid = true)

/-- The step from `s` to `t` delivers the next byte to the host, as the value `v`. -/
structure DeliversByte (v : Word) (s t : State) : Prop where
  word : formattedWord s t = [v]
  undelivered : s.undelivered = v.extractLsb' 0 8 :: t.undelivered
  last : v.getLsbD 9 = decide (t.undelivered = [])
  in_flight : t.undelivered ≠ [] → RenderingInFlight t

/-- A step that leaves the FMT unit, the exchange and the sample alone, and is no read of FMT_DATA. -/
theorem keepsRendering_of_unit_eq {r : Request} {s t : State} (hs : RenderingInFlight s)
    (hr : s.readsFmtData = false) (hf : t.fact = s.fact) (hx : t.xfer = s.xfer) (hq : t.seq = s.seq)
    (hv : t.fvalid = s.fvalid) (hd : t.fdata = s.fdata) (hl : t.flast = s.flast)
    (hp : t.fpend = s.fpend) : KeepsRendering (.host r) s t := by
  have hu : t.undelivered = s.undelivered := by simp [State.undelivered, hv, hd, hp]
  exact ⟨by simp [formattedWord, hr], hu,
    ⟨hf ▸ hs.active, hx ▸ hs.no_exchange, hq ▸ hs.no_sample, hu ▸ hs.some_undelivered,
      by rw [hv, hl, hp]; exact hs.held_last⟩, by simp, by simp [hv], by simp [hr]⟩

/-- Everything that a turn of the engine can do while a rendering is in flight. -/
theorem keepsRendering_of_engine {s : State} {miso : Byte} {rest : List Input}
    (hs : RenderingInFlight s) (hin : s.inputs = .engine miso :: rest) :
    (engineTurn miso { s with inputs := rest }).trace = s.trace
      ∧ KeepsRendering (.engine miso) s (engineTurn miso { s with inputs := rest }) := by
  have hr := readsFmtData_of_engine hin
  rw [engineTurn_of_idle (by simpa using hs.no_exchange) (by simpa using hs.no_sample)]
  rcases Bool.eq_false_or_eq_true s.fvalid with hv | hv
  · have he : emitStep { s with inputs := rest } = none := by simp [emitStep_eq_none, hv]
    rw [he]
    exact ⟨rfl, by simp [formattedWord, hr], rfl,
      ⟨hs.active, hs.no_exchange, hs.no_sample, hs.some_undelivered, hs.held_last⟩, by simp [hv],
      by simp, by simp [hr]⟩
  · obtain ⟨b, more, hp⟩ := List.exists_cons_of_ne_nil
      (fun hp : s.fpend = [] => hs.some_undelivered (by simp [State.undelivered, hv, hp]))
    have he : emitStep { s with inputs := rest } = some (emitByte b more { s with inputs := rest }) := by
      simp [emitStep, hs.active, hv, hp]
    rw [he]
    refine ⟨rfl, by simp [formattedWord, hr], by simp [State.undelivered, emitByte, hv, hp],
      ⟨hs.active, hs.no_exchange, hs.no_sample, by simp [emitByte, State.undelivered], fun _ => ?_⟩,
      fun _ => rfl, fun _ => rfl, by simp [hr]⟩
    show more.isEmpty = decide (more = [])
    cases more <;> simp

/-- Everything that a read of FMT_DATA can do while a rendering is in flight. -/
theorem rendering_of_rdFmtData {s : State} {r : Request} {rest : List Input}
    (hs : RenderingInFlight s) (hr : s.readsFmtData = true) :
    KeepsRendering (.host r) s
        (({ s with inputs := rest } : State).popFmtData.returned s.fmtDataWord)
    ∨ DeliversByte s.fmtDataWord s
        (({ s with inputs := rest } : State).popFmtData.returned s.fmtDataWord) := by
  have hvalid := s.fmtDataWord_valid
  rcases Bool.eq_false_or_eq_true s.fvalid with hv | hv
  · have hl := hs.held_last hv
    rw [State.popFmtData_of_fvalid _ (by simpa using hv)]
    refine .inr ⟨?_, ?_, ?_, fun hne => ?_⟩
    · simp [-BitVec.getLsbD_eq_getElem, formattedWord, hr, State.returned, hvalid, hv]
    · rw [s.fmtDataWord_byte]; simp [State.undelivered, hv]
    · rw [s.fmtDataWord_last, hl]; simp [State.undelivered]
    · have hp : s.fpend ≠ [] := by simpa [State.undelivered] using hne
      exact ⟨by simp [hs.active, hl, hp], hs.no_exchange, hs.no_sample, hne, by simp⟩
  · rw [State.popFmtData_of_not_fvalid _ (by simpa using hv)]
    exact .inl ⟨by simp [-BitVec.getLsbD_eq_getElem, formattedWord, hr, State.returned, hvalid, hv],
      rfl, ⟨hs.active, hs.no_exchange, hs.no_sample, hs.some_undelivered, hs.held_last⟩, by simp, id,
      by simp [hv]⟩

/-- Everything that a step by a listed turn can do while a rendering is in flight: it moves no pin, and
either leaves the rendering as it is or delivers its next byte to the host. -/
theorem step_renderingInFlight {s t : State} {x : Input} {rest : List Input}
    (hs : RenderingInFlight s) (hin : s.inputs = x :: rest) (h : step s = .next t) :
    t.inputs = rest ∧ t.trace = s.trace
      ∧ (KeepsRendering x s t ∨ ∃ r v, x = .host r ∧ DeliversByte v s t) := by
  cases x with
  | engine miso =>
    rw [step_of_engine hin] at h
    cases h
    obtain ⟨ht, hk⟩ := keepsRendering_of_engine hs hin
    exact ⟨by simp, ht, .inl hk⟩
  | host r =>
    rw [step_of_host hin] at h
    obtain ⟨u, i, ha, hd, he⟩ := hostTurn_eq_next h
    have hr := readsFmtData_of_host hin (instr_of_decode ha hd)
    have hb : ({ s with inputs := rest } : State).busy = true := hs.busy
    have keep {t : State} (hi : i ≠ .rdFmtData) (hf : t.fact = s.fact) (hx : t.xfer = s.xfer)
        (hq : t.seq = s.seq) (hv : t.fvalid = s.fvalid) (hd : t.fdata = s.fdata)
        (hl : t.flast = s.flast) (hp : t.fpend = s.fpend) : KeepsRendering (.host r) s t :=
      keepsRendering_of_unit_eq hs (by simp [hr, hi]) hf hx hq hv hd hl hp
    cases exec_effect he with
    | read i v hi hn => exact ⟨rfl, rfl, .inl (keep hi.2 rfl rfl rfl rfl rfl rfl rfl)⟩
    | rdStatus => exact ⟨rfl, rfl, .inl (keep (by simp) rfl rfl rfl rfl rfl rfl rfl)⟩
    | unchanged i hi _ => exact ⟨rfl, rfl, .inl (keep hi.2.2 rfl rfl rfl rfl rfl rfl rfl)⟩
    | clrerr => exact ⟨rfl, rfl, .inl (keep (by simp) rfl rfl rfl rfl rfl rfl rfl)⟩
    | wrFmtIn w => exact ⟨rfl, rfl, .inl (keep (by simp) rfl rfl rfl rfl rfl rfl rfl)⟩
    | illegal w => exact ⟨rfl, rfl, .inl (keep (by simp) rfl rfl rfl rfl rfl rfl rfl)⟩
    | busy i _ hi =>
      have hn : i ≠ .rdFmtData := by rintro rfl; simp [NeedsSequencer] at hi
      exact ⟨rfl, rfl, .inl (keep hn rfl rfl rfl rfl rfl rfl rfl)⟩
    | rdFmtData =>
      refine ⟨?_, ?_, (rendering_of_rdFmtData hs (by simp [hr])).imp_right fun hd => ⟨r, _, rfl, hd⟩⟩
      all_goals unfold State.popFmtData; split <;> rfl
    | _ => simp_all

end Sys2Proof.Machine
end

