-- ==== Sys2Proof/Tests/Slice0.lean ====
section
/-! SUPPORT. The model's own tests: the well-formedness check, the decoder on words written out from
30_encoding.md section 4, single steps against the vectors of 95_test_vectors.md, and a witness for
the hypotheses of every statement. -/

namespace Sys2Proof.Tests

open Sys2Proof.Machine

/-- The state that an outcome goes on with. -/
def nextOf : Result → Option State
  | .next t => some t
  | _ => none

/-- One field of the state after a transaction. -/
def after {α : Type} (i : Instr) (s : State) (f : State → α) : Option α := (nextOf (exec i s)).map f

/-- The value that a read returns. -/
def readOf (i : Instr) (s : State) : Option Word := ((nextOf (exec i s)).bind fun t => t.reads.getLast?)

/-! ### Well-formedness: a word that is a command is no CMD_ILLEGAL (R57) -/

theorem test_wellFormed_refuses_nop_word : WellFormed (.cmdIllegal 0x00000000) = false := by decide
theorem test_wellFormed_refuses_sample_word : WellFormed (.cmdIllegal 0x030000FF) = false := by decide
theorem test_wellFormed_refuses_format_word : WellFormed (.cmdIllegal 0x04000001) = false := by decide
theorem test_wellFormed_refuses_clrerr_word : WellFormed (.cmdIllegal 0x05000000) = false := by decide
theorem test_wellFormed_accepts_illegal_words :
    WellFormed (.cmdIllegal 0x00000001) = true ∧ WellFormed (.cmdIllegal 0x03000100) = true
    ∧ WellFormed (.cmdIllegal 0x04000002) = true ∧ WellFormed (.cmdIllegal 0x06000000) = true
    ∧ WellFormed (.cmdIllegal 0xFF000000) = true := by decide

/-! ### Decoding: WE in bit 40, OFF in bits 39:32, WDATA in bits 31:0 (R50) -/

theorem test_decode_register_reads :
    decodeTableWord 48 0b0_00000000_00000000000000000000000000000000 = some .rdCtrl
    ∧ decodeTableWord 48 0b0_00000100_00000000000000000000000000000000 = some .rdStatus
    ∧ decodeTableWord 48 0b0_00001000_00000000000000000000000000000000 = some .rdTxdata
    ∧ decodeTableWord 48 0b0_00001100_00000000000000000000000000000000 = some .rdRxdata
    ∧ decodeTableWord 48 0b0_00010000_00000000000000000000000000000000 = some .rdCmd
    ∧ decodeTableWord 48 0b0_00010100_00000000000000000000000000000000 = some .rdValue
    ∧ decodeTableWord 48 0b0_00011000_00000000000000000000000000000000 = some .rdFmtIn
    ∧ decodeTableWord 48 0b0_00011100_11111111111111111111111111111111 = some .rdFmtData := by decide

theorem test_decode_register_writes :
    decodeTableWord 48 0b1_00000000_00000000000000001111111100000011 = some (.wrCtrl 0x0000FF03)
    ∧ decodeTableWord 48 0b1_00000100_11111111111111111111111111111111 = some (.wrStatus 0xFFFFFFFF)
    ∧ decodeTableWord 48 0b1_00001000_00000000000000000000000010100101 = some (.tx 0x000000A5)
    ∧ decodeTableWord 48 0b1_00001100_00000000000000000000000001010101 = some (.wrRxdata 0x00000055)
    ∧ decodeTableWord 48 0b1_00010100_00000000000000000000000000000000 = some (.wrValue 0x00000000)
    ∧ decodeTableWord 48 0b1_00011000_11111111111111111111001001010100 = some (.wrFmtIn 0xFFFFF254)
    ∧ decodeTableWord 48 0b1_00011100_00000000000000000000000001000001 = some (.wrFmtData 0x00000041) := by
  decide

theorem test_decode_unmapped :
    decodeTableWord 48 0b0_00101000_00000000000000000000000000000000 = some (.rdUnmapped20 0b010)
    ∧ decodeTableWord 48 0b0_01100100_00000000000000000000000000000000 = some (.rdUnmapped40 0b1001)
    ∧ decodeTableWord 48 0b0_11111100_00000000000000000000000000000000 = some (.rdUnmapped80 0b11111)
    ∧ decodeTableWord 48 0b1_00111100_00000000000000000000000000000001 = some (.wrUnmapped20 0b111 1)
    ∧ decodeTableWord 48 0b1_01000000_00000000000000000000000000000010 = some (.wrUnmapped40 0b0000 2)
    ∧ decodeTableWord 48 0b1_10000100_00000001000000000000000000000000
        = some (.wrUnmapped80 0b00001 0x01000000) := by decide

theorem test_decode_commands :
    decodeTableWord 48 0b1_00010000_00000000_000000000000000000000000 = some .nop
    ∧ decodeTableWord 48 0b1_00010000_00000001_000000000000000000000000 = some .csAssert
    ∧ decodeTableWord 48 0b1_00010000_00000010_000000000000000000000000 = some .csDeassert
    ∧ decodeTableWord 48 0b1_00010000_00000011_000000000000000010000001 = some (.sample 0x81)
    ∧ decodeTableWord 48 0b1_00010000_00000100_000000000000000000000000 = some (.format .fmtIn)
    ∧ decodeTableWord 48 0b1_00010000_00000100_000000000000000000000001 = some (.format .value)
    ∧ decodeTableWord 48 0b1_00010000_00000101_000000000000000000000000 = some .clrerr
    ∧ decodeTableWord 48 0b1_00010000_00000110_000000000000000000000000
        = some (.cmdIllegal 0x06000000)
    ∧ decodeTableWord 48 0b1_00010000_00000011_000000000000000100000000
        = some (.cmdIllegal 0x03000100) := by decide

/-- D16: OFF = 0x02 is not admitted. -/
theorem test_decode_refuses_unaligned : decodeTableWord 48 0b0_00000010_00000000000000000000000000000000 = none := by
  decide

/-- The words of 95_test_vectors.md, from the instructions. -/
theorem test_encode_vectors :
    encode (.tx 0xA5) = 0x108000000A5 ∧ encode .csAssert = 0x11001000000
    ∧ encode (.sample 255) = 0x110030000FF ∧ encode (.format .value) = 0x11004000001
    ∧ encode (.wrUnmapped80 0 0x01000000) = 0x18001000000 ∧ encode .rdFmtData = 0x01C00000000 := by decide

/-! ### Single transactions: the vectors of 95_test_vectors.md A, B4, C, D -/

/-- a state with chip-select asserted -/
def selected : State := { State.reset with cs := true }
/-- a state with the exchange of 0xA5 in flight -/
def exchanging : State := { State.reset with cs := true, xfer := some 0xA5 }
/-- a state with a rendering in flight whose last byte is held -/
def lastHeld : State :=
  { State.reset with fact := true, fvalid := true, fdata := 0x30, flast := true }

theorem test_wrCtrl_ignores_reserved_bits :
    (nextOf (exec (.wrCtrl 0xFFFFFFFF) State.reset)).bind (readOf .rdCtrl) = some 0x0000FF03 := by decide
theorem test_wrCtrl_rejected_while_busy :
    after (.wrCtrl 1) exchanging (fun t => (t.cpol, t.eBusy)) = some (false, true) := by decide
theorem test_rdStatus_returns_then_clears_tc :
    readOf .rdStatus { selected with tc := true } = some 0x00000005
    ∧ (nextOf (exec .rdStatus { selected with tc := true })).bind (readOf .rdStatus)
      = some 0x00000004 := by decide
theorem test_rdStatus_all_errors :
    readOf .rdStatus { State.reset with
      eIllop := true, eBusy := true, eState := true, eInvch := true, cs := true, fact := true, fvalid := true }
      = some 0x00000F36 := by decide
theorem test_tx_starts : after (.tx 0xFFFFFFA5) { selected with tc := true } (fun t => (t.xfer, t.tc, t.statusWord))
    = some (some 0xA5, false, 0x00000006) := by decide
theorem test_tx_keeps_byte_in_flight :
    after (.tx 0x11) exchanging (fun t => (t.xfer, t.eBusy)) = some (some 0xA5, true) := by decide
theorem test_rdRxdata : readOf .rdRxdata { exchanging with rx := 0x3C } = some 0x0000003C := by decide
theorem test_csAssert : after .csAssert State.reset (fun t => (t.cs, t.trace)) = some (true, [.csLow]) := by decide
theorem test_csAssert_twice : after .csAssert selected (fun t => (t.cs, t.trace)) = some (true, []) := by decide
theorem test_csDeassert : after .csDeassert selected (fun t => (t.cs, t.trace)) = some (false, [.csHigh]) := by
  decide
theorem test_csDeassert_rejected_while_busy :
    after .csDeassert exchanging (fun t => (t.cs, t.eBusy, t.trace)) = some (true, true, []) := by decide
theorem test_sample_7 : after (.sample 7) State.reset (fun t => (t.seq, t.ch, t.statusWord))
    = some (.cslo, 7, 0x00000002) := by decide
theorem test_sample_9_selected :
    after (.sample 9) selected (fun t => (t.eState, t.eInvch, t.seq)) = some (true, false, .idle) := by decide
theorem test_rdValue : readOf .rdValue { State.reset with value := 0x00014244 } = some 0x00014244 := by decide
theorem test_wrFmtIn_while_busy : after (.wrFmtIn 0xFFFFF254) exchanging (·.fmtIn) = some 0xFFFFF254 := by decide
theorem test_rdFmtIn : readOf .rdFmtIn { State.reset with fmtIn := 0x0000041A } = some 0x0000041A := by decide
theorem test_format_fmtIn :
    after (.format .fmtIn) { State.reset with fmtIn := 1050 } (fun t => (t.fpend, t.statusWord))
    = some ([0x31, 0x2E, 0x35, 0x30], 0x00000022) := by decide
theorem test_format_value :
    after (.format .value) { State.reset with fmtIn := 1, value := 82500 } (·.fpend)
    = some [0x38, 0x32, 0x2E, 0x35, 0x30, 0x30] := by decide
theorem test_rdFmtData_last :
    readOf .rdFmtData lastHeld = some 0x00000330
    ∧ after .rdFmtData lastHeld (·.statusWord) = some 0x00000000 := by decide
theorem test_rdFmtData_empty : readOf .rdFmtData State.reset = some 0x00000000 := by decide
theorem test_clrerr : after .clrerr { State.reset with eBusy := true, eInvch := true, tc := true } (·.statusWord)
    = some 0x00000001 := by decide
theorem test_cmdIllegal_while_busy :
    after (.cmdIllegal 0xFF000000) exchanging (fun t => (t.eIllop, t.eBusy)) = some (true, false) := by decide
theorem test_rdTxdata : readOf .rdTxdata exchanging = some 0x00000000 := by decide
theorem test_wrFmtData_pops_nothing : nextOf (exec (.wrFmtData 0x41) lastHeld) = some lastHeld := by decide
theorem test_wrUnmapped80_no_alias :
    nextOf (exec (.wrUnmapped80 0 0x01000000) State.reset) = some State.reset := by decide

/-! ### Single engine turns: A1.4, A3, B1, B3, C2 -/

theorem test_xdone : (fun t : State => (t.trace, t.rxWord, t.statusWord)) (engineTurn 0x3C exchanging)
    = ([.xchg 0xA5 0x3C], 0x0000003C, 0x00000005) := by decide
theorem test_phase_cslo :
    (fun t : State => (t.seq, t.statusWord, t.trace)) (engineTurn 0 { State.reset with seq := .cslo })
    = (.x1, 0x00000006, [.csLow]) := by decide
theorem test_phase_x1 :
    (fun t : State => (t.seq, t.rx, t.trace)) (engineTurn 0x11 { selected with seq := .x1 })
    = (.x2, 0, [.xchg 0x06 0x11]) := by decide
theorem test_phase_x2 :
    (fun t : State => (t.seq, t.hi, t.trace)) (engineTurn 0xE4 { selected with seq := .x2, ch := 3 })
    = (.x3, 0x4, [.xchg 0xC0 0xE4]) := by decide
theorem test_phase_x3 :
    (fun t : State => (t.seq, t.lo, t.trace)) (engineTurn 0x33 { selected with seq := .x3 })
    = (.cshi, 0x33, [.xchg 0x00 0x33]) := by decide
theorem test_phase_cshi :
    (fun t : State => (t.seq, t.cs, t.trace)) (engineTurn 0 { selected with seq := .cshi })
    = (.scale, false, [.csHigh]) := by decide
theorem test_phase_scale :
    (fun t : State => (t.seq, t.raw, t.value, t.statusWord))
      (engineTurn 0 { State.reset with seq := .scale, hi := 0x2, lo := 0x33 })
    = (.idle, 563, 45358, 0x00000008) := by decide
theorem test_emit :
    (fun t : State => (t.fmtDataWord, t.fpend))
      (engineTurn 0 { State.reset with fact := true, fpend := [0x30, 0x2E, 0x30] })
    = (0x00000130, [0x2E, 0x30]) := by decide

theorem test_channel_bytes :
    (List.range 8).map (fun c => channelByte (BitVec.ofNat 3 c))
    = [0x00, 0x40, 0x80, 0xC0, 0x00, 0x40, 0x80, 0xC0] := by decide
theorem test_scale_vectors :
    [0, 1, 2, 255, 256, 767, 768, 1023, 1024, 1536, 2048, 2816, 3072, 4094, 4095].map
      (fun r => scaleRaw (BitVec.ofNat 12 r))
    = [0, 80, 161, 20544, 20625, 61794, 61875, 82419, 82500, 123750, 165000, 226875, 247500, 329838,
        329919] := by decide
theorem test_render_vectors :
    render 0xFFFFFFFF = [0x2D, 0x30, 0x2E, 0x31] ∧ render 0x000003ED = [0x31, 0x2E, 0x35]
    ∧ render 0x000186A0 = [0x31, 0x30, 0x30, 0x2E, 0x30]
    ∧ render 0x80000000
      = [0x2D, 0x32, 0x31, 0x34, 0x37, 0x34, 0x38, 0x33, 0x2E, 0x36, 0x34, 0x38] := by decide

/-- The very next step after `withFetchWord` performs the word's transaction (A3, channel 2). -/
theorem test_step_runs_fetch_word :
    (nextOf (step (State.reset.withFetchWord 48 0x11003000002))).map (fun t => (t.seq, t.ch, t.inputs))
    = some (.cslo, 2, []) := by decide

/-- A2: the bits of 0x06 on MOSI. -/
theorem test_mosi_bits : mosiBits 0x06 = [false, false, false, false, false, true, true, false] := by decide
theorem test_shift_in : shiftIn [true, false, true, false, false, false, false, true] = 0xA1 := by decide

/-! ### Witnesses: the hypotheses of each statement can be met -/

theorem witness_DecodeOfEncode :
    WellFormed (.cmdIllegal 0x06000000) = true ∧ WellFormed (.sample 255) = true := by decide
theorem witness_EncodeOfDecode :
    decode 0x004FFFFFFFF = .ok .rdStatus ∧ decode 0x11003000100 = .ok (.cmdIllegal 0x03000100) :=
  ⟨by rfl, by rfl⟩
theorem witness_DecoderFollowsTheOpcodeMap :
    decode 0x03C00000000 = .ok (.rdUnmapped20 7) ∧ decode 0x04000000000 = .ok (.rdUnmapped40 0)
    ∧ decode 0x11000000000 = .ok .nop := ⟨by rfl, by rfl, by rfl⟩
theorem witness_StepPerformsTheDecodedInstruction :
    ({ exchanging with inputs := [.host (.reg 0x00400000000)] } : State).inputs
      = .host (.reg 0x00400000000) :: []
    ∧ (Request.reg 0x00400000000).toWord = .ok 0x00400000000 ∧ decode 0x00400000000 = .ok .rdStatus :=
  ⟨by rfl, by rfl, by rfl⟩
theorem witness_BusAccessIsRegisterTransaction : ∃ a : BusAccess,
    Config.base ≤ a.addr ∧ a.addr < Config.base + 256 ∧ a.size = 4 ∧ (a.addr - Config.base) % 4 = 0 :=
  ⟨⟨Config.base + 252, 4, true, 1⟩, by simp, by simp, rfl, by simp⟩
theorem witness_UnadmittedTransactionsRefused_offset : (tOff 0x00300000000).toNat % 4 ≠ 0
    ∧ ({ State.reset with inputs := [.host (.reg 0x00300000000)] } : State).inputs
      = .host (.reg 0x00300000000) :: [] := by decide
theorem witness_UnadmittedTransactionsRefused_width : ∃ a : BusAccess,
    Config.base ≤ a.addr ∧ a.addr < Config.base + 256 ∧ (a.size ≠ 4 ∨ (a.addr - Config.base) % 4 ≠ 0)
    ∧ ({ State.reset with inputs := [.host (.bus a)] } : State).inputs = .host (.bus a) :: [] :=
  ⟨⟨Config.base + 4, 2, false, 0⟩, by simp, by simp, .inl (by decide), rfl⟩
theorem witness_UnadmittedTransactionsRefused_unaligned : ∃ a : BusAccess,
    Config.base ≤ a.addr ∧ a.addr < Config.base + 256 ∧ (a.size ≠ 4 ∨ (a.addr - Config.base) % 4 ≠ 0)
    ∧ ({ State.reset with inputs := [.host (.bus a)] } : State).inputs = .host (.bus a) :: [] :=
  ⟨⟨Config.base + 255, 4, false, 0⟩, by simp, by simp, .inr (by simp), rfl⟩
theorem witness_AddressesOutsideTheWindowRefused : ∃ a : BusAccess,
    (a.addr < Config.base ∨ Config.base + 256 ≤ a.addr)
    ∧ ({ State.reset with inputs := [.host (.bus a)] } : State).inputs = .host (.bus a) :: [] :=
  ⟨⟨Config.base + 256, 4, false, 0⟩, .inr (Nat.le_refl _), rfl⟩

/-- Two admitted requests around a turn of the engine. -/
theorem witness_AdmittedRunsNeverStop :
    InputsAdmitted [.host (.reg 0x108000000A5), .engine 0x3C, .host (.reg 0x00400000000)] := by
  intro r hr
  simp only [List.mem_cons, Input.host.injEq, List.not_mem_nil, or_false, reduceCtorEq, false_or] at hr
  obtain rfl | rfl := hr
  · exact ⟨_, .tx 0xA5, by rfl, by rfl⟩
  · exact ⟨_, .rdStatus, by rfl, by rfl⟩

theorem witness_WrCtrlSetsTheFields : exchanging.busy = true ∧ State.reset.busy = false
    ∧ nextOf (exec (.wrCtrl 0x303) State.reset)
      = some { State.reset with cpol := true, cpha := true, clkdiv := 3 } := by decide
theorem witness_TxStartsAnExchange : lastHeld.busy = true ∧ State.reset.busy = false := by decide
theorem witness_ChipSelectCommands : exchanging.busy = true ∧ (State.reset.busy = false ∧ State.reset.cs = false)
    ∧ selected.busy = false ∧ selected.cs = true := by decide
theorem witness_ChipSelectCommands_argument : (0x000001 : BitVec 24) ≠ 0 := by decide
theorem witness_XdoneCompletesTheExchange : exchanging.xfer = some 0xA5 := by decide
theorem witness_StepTakesTheEnginesTurn :
    ({ exchanging with inputs := [.engine 0x3C] } : State).inputs = .engine 0x3C :: []
    ∧ exchanging.inputs = [] := by decide
theorem witness_SampleStartsTheSequence :
    (State.reset.busy = false ∧ State.reset.cs = false ∧ (7 : Byte).toNat ≤ 7 ∧ 8 ≤ (8 : Byte).toNat)
    ∧ exchanging.busy = true ∧ selected.busy = false ∧ selected.cs = true
    ∧ 256 ≤ (0x000100 : BitVec 24).toNat := by decide
theorem witness_SampleErrorsAreRaisedExactlySo :
    (selected.eState = false ∧ nextOf (exec (.sample 8) selected) = some { selected with eState := true })
    ∧ State.reset.eInvch = false
    ∧ nextOf (exec (.sample 8) State.reset) = some { State.reset with eInvch := true } := by decide

/-- A state in the given phase, with chip-select as given and one turn of the engine to come. -/
def inPhase (p : Phase) (cs : Bool) : State :=
  { State.reset with seq := p, cs := cs, inputs := [.engine 0xE4] }

theorem witness_AcqPhasesStep :
    (∀ p ∈ [Phase.cslo, .x1, .x2, .x3, .cshi],
      (inPhase p true).xfer = none ∧ (inPhase p true).inputs = .engine 0xE4 :: [] ∧ (inPhase p true).seq = p) := by
  decide
theorem witness_ScalePhaseStep :
    (inPhase .scale false).xfer = none ∧ (inPhase .scale false).inputs = .engine 0xE4 :: []
    ∧ (inPhase .scale false).seq = .scale := by decide
theorem witness_ScalingDoesNotOverflow : (4095 : BitVec 12).toNat = 4095 := by decide
theorem witness_ChannelBit2IsUnobservable :
    AgreeButChannelBit2 { inPhase .x2 true with ch := 1 } { inPhase .x2 true with ch := 5 }
    ∧ ∃ t, core.run 1 { inPhase .x2 true with ch := 1 } = .next t :=
  ⟨⟨rfl, by decide⟩, _, rfl⟩

/-- An interleaving of the six engine turns of a sample with polls of STATUS. -/
def sampling : State :=
  { State.reset with inputs := .host (.reg (encode (.sample 6))) ::
      ([.host (.reg 0x00400000000), .engine 0, .engine 0x11, .engine 0xF2, .host (.reg 0x00400000000),
        .engine 0x33, .engine 0] ++ .engine 0 :: []) }

theorem witness_SampleTraceUnderEveryInterleaving :
    sampling.busy = false ∧ sampling.cs = false ∧ (6 : Byte).toNat ≤ 7
    ∧ InputsAdmitted [.host (.reg 0x00400000000), .engine 0, .engine 0x11, .engine 0xF2,
        .host (.reg 0x00400000000), .engine 0x33, .engine 0]
    ∧ engineAnswers [.host (.reg 0x00400000000), .engine 0, .engine 0x11, .engine 0xF2,
        .host (.reg 0x00400000000), .engine 0x33, .engine 0] = [0, 0x11, 0xF2, 0x33, 0] := by
  refine ⟨by decide, by decide, by decide, fun r hr => ?_, by decide⟩
  simp only [List.mem_cons, Input.host.injEq, List.not_mem_nil, or_false, reduceCtorEq, false_or, or_self] at hr
  subst hr
  exact ⟨_, .rdStatus, by rfl, by rfl⟩

theorem witness_FormatStartsARendering : lastHeld.busy = true ∧ State.reset.busy = false
    ∧ 2 ≤ (0x000002 : BitVec 24).toNat := by decide
theorem witness_IgnoredWritesAndNop : Instr.nop ∈ [Instr.nop, .wrStatus 0] ∧ (0x800000 : BitVec 24) ≠ 0 := by decide
theorem witness_ClrerrClearsTheErrors : (0x000001 : BitVec 24) ≠ 0 ∧ Instr.nop ≠ .clrerr
    ∧ nextOf (exec .nop { selected with eInvch := true }) = some { selected with eInvch := true }
    ∧ ({ selected with eInvch := true } : State).errorFlag .invalidChannel = true := by decide
theorem witness_DecIsTheDecimalSpelling : (2147483 : Nat) ≤ 2147483 ∧ (2147483 : Nat) ≠ 0 := by decide
theorem witness_RenderingLength : (329919 : Word).toNat ≤ 329919 := by decide
theorem witness_RenderingSignAndPoint : (0xFFFFFFFF : Word).toInt < 0 ∧ 0 ≤ (0 : Word).toInt := by decide

/-- A state in which EMIT is enabled and the engine's turn comes. -/
def emitting : State :=
  { State.reset with fact := true, fpend := [0x30], inputs := [.engine 0] }

theorem witness_EmitMovesTheNextByte : emitting.xfer = none ∧ emitting.seq = .idle ∧ emitting.fact = true
    ∧ emitting.fvalid = false ∧ emitting.fpend = 0x30 :: [] ∧ emitting.inputs = .engine 0 :: [] := by decide
theorem witness_RdFmtDataPops : State.reset.fvalid = false
    ∧ (({ lastHeld with flast := false } : State).fvalid = true ∧ ({ lastHeld with flast := false } : State).flast = false)
    ∧ lastHeld.fvalid = true ∧ lastHeld.flast = true := by decide

/-- A FORMAT of the value 0 at reset, and a poll after each of three turns of the engine. -/
def formatting : State :=
  { State.reset with inputs := .host (.reg (encode (.format .value)))
      :: ([0, 0, 0].flatMap fun m : Byte => [.engine m, .host (.reg (encode .rdFmtData))]) ++ [] }

theorem witness_RenderingReachesTheHostInOrder : formatting.busy = false ∧ formatting.fvalid = false
    ∧ [(0 : Byte), 0, 0].length = (render formatting.value).length := by decide

/-- Turns that deliver the three bytes of "0.0", with other turns and transactions between: the three
rounds of an engine turn and a read of FMT_DATA are a sublist. -/
theorem witness_RenderingReachesTheHostInOrder_interleaved : ∃ turns : List Input,
    ({ State.reset with inputs := .host (.reg (encode (.format .value))) :: (turns ++ []) } : State).inputs
      = .host (.reg (encode (.format .value))) :: (turns ++ [])
    ∧ InputsAdmitted turns
    ∧ ∃ rounds : List (Byte × Request),
        (∀ p ∈ rounds, p.2.instr = some .rdFmtData)
        ∧ rounds.length = (render State.reset.value).length
        ∧ (rounds.flatMap fun p => [.engine p.1, .host p.2]).Sublist turns := by
  refine ⟨[.host (.reg 0x01C00000000), .engine 1, .host (.reg 0x118FFFFF254), .host (.reg 0x01C00000000),
    .engine 2, .engine 3, .host (.reg 0x01C00000000), .engine 4, .host (.reg 0x01CFFFFFFFF)], rfl, ?_,
    [(1, .reg 0x01C00000000), (3, .reg 0x01C00000000), (4, .reg 0x01CFFFFFFFF)], by decide, by decide,
    by decide⟩
  intro r hr
  simp only [List.mem_cons, Input.host.injEq, List.not_mem_nil, or_false, reduceCtorEq, false_or] at hr
  obtain rfl | rfl | rfl | rfl | rfl := hr
  · exact ⟨_, .rdFmtData, by rfl, by rfl⟩
  · exact ⟨_, .wrFmtIn 0xFFFFF254, by rfl, by rfl⟩
  · exact ⟨_, .rdFmtData, by rfl, by rfl⟩
  · exact ⟨_, .rdFmtData, by rfl, by rfl⟩
  · exact ⟨_, .rdFmtData, by rfl, by rfl⟩

theorem witness_BusyIsRaisedByExactlySix : exchanging.eBusy = false
    ∧ nextOf (exec (.tx 0) exchanging) = some { exchanging with eBusy := true } := by decide
theorem witness_RejectionsArePrecise :
    nextOf (exec (.sample 0) ({ selected with eState := true } : State).clearErrors)
      = some { selected with eState := true }
    ∧ ({ selected with eState := true } : State).errorFlag .badState = true := by decide
theorem witness_ErrorFlagsAreSticky :
    nextOf (step { selected with eState := true, inputs := [.host (.reg (encode .clrerr))] }) = some selected
    ∧ ({ selected with eState := true } : State).errorFlag .badState = true
    ∧ selected.errorFlag .badState = false := by decide
theorem witness_ReadSideEffects : tWe (encode .rdCmd) = false ∧ tWe (encode .rdStatus) = false
    ∧ tWe (encode .rdFmtData) = false ∧ State.reset.fvalid = false ∧ lastHeld.fvalid = true
    ∧ (nextOf (exec .rdCmd lastHeld)).isSome ∧ (nextOf (exec .rdFmtData lastHeld)).isSome := by decide
theorem witness_ConfigurationWritesAreIdempotent :
    (nextOf (exec (.wrCtrl 3) State.reset)).isSome ∧ (nextOf (exec (.wrFmtIn 3) exchanging)).isSome := by decide
theorem witness_BusyProtectsTheOperation : lastHeld.busy = true ∧ (nextOf (exec .rdFmtData lastHeld)).isSome
    ∧ exchanging.busy = true ∧ (nextOf (exec .csDeassert exchanging)).isSome
    ∧ nextOf (exec (.wrFmtIn 7) lastHeld) = some { lastHeld with fmtIn := 7 } := by decide

/-- The invariant at states other than reset, with each unit active. -/
theorem inv_exchanging : Inv { exchanging with trace := [.csLow], inputs := [.engine 0x3C] } := by
  constructor <;> simp [exchanging, State.reset, State.undelivered, scaleRaw, traceChipSelect, chipSelectAfter]
theorem inv_sampling : Inv (inPhase .cslo false) := by
  constructor <;> simp [inPhase, State.reset, State.undelivered, scaleRaw, traceChipSelect]
theorem inv_lastHeld : Inv lastHeld := by
  constructor <;> simp [lastHeld, State.reset, State.undelivered, scaleRaw, traceChipSelect]
  exact ⟨0, by decide⟩
theorem inv_emitting : Inv emitting := by
  constructor <;> simp [emitting, State.reset, State.undelivered, scaleRaw, traceChipSelect]
  exact ⟨0, by decide⟩

theorem witness_StepKeepsTheInvariant : Inv (inPhase .cslo false)
    ∧ (nextOf (step (inPhase .cslo false))).isSome := ⟨inv_sampling, by decide⟩
theorem witness_TraceRecordsEveryPinEvent :
    (Inv (inPhase .cslo false) ∧ (nextOf (step (inPhase .cslo false))).isSome)
    ∧ Inv { exchanging with trace := [.csLow], inputs := [.engine 0x3C] }
    ∧ (nextOf (step { exchanging with trace := [.csLow], inputs := [.engine 0x3C] })).isSome :=
  ⟨⟨inv_sampling, by decide⟩, inv_exchanging, by decide⟩
theorem witness_AtMostOneEngineStepIsEnabled :
    (Inv { exchanging with trace := [.csLow], inputs := [.engine 0x3C] }
      ∧ (xdoneStep 0 { exchanging with trace := [.csLow], inputs := [.engine 0x3C] }).isSome)
    ∧ (Inv (inPhase .cslo false) ∧ (acqStep 0 (inPhase .cslo false)).isSome)
    ∧ Inv emitting ∧ (engineStep 0 emitting).isSome :=
  ⟨⟨inv_exchanging, by decide⟩, ⟨inv_sampling, by decide⟩, inv_emitting, by decide⟩
theorem witness_QuiescentMeansNoEngineStep :
    ({ exchanging with xfer := none } : State).quiescent = true
    ∧ Inv lastHeld ∧ lastHeld.quiescent = false ∧ engineStep 0 lastHeld = none :=
  ⟨by decide, inv_lastHeld, by decide, by decide⟩
theorem witness_AcceptedExchangeCompletes : InputsAdmitted [.host (.reg 0x00400000000)]
    ∧ ({ exchanging with inputs := [.host (.reg 0x00400000000)] } : State).xfer = some 0xA5 := by
  refine ⟨fun r hr => ?_, by decide⟩
  simp only [List.mem_cons, Input.host.injEq, List.not_mem_nil, or_false] at hr
  subst hr
  exact ⟨_, .rdStatus, by rfl, by rfl⟩
theorem witness_AcceptedSampleCompletes : Inv (inPhase .cslo false)
    ∧ InputsAdmitted (inPhase .cslo false).inputs ∧ (inPhase .cslo false).seq ≠ .idle := by
  refine ⟨inv_sampling, fun r hr => ?_, by decide⟩
  simp [inPhase] at hr
theorem witness_CtrlDoesNotInfluenceRuns :
    AgreeButCtrlAndReads (inPhase .x1 true) { inPhase .x1 true with cpol := true, clkdiv := 9, reads := [1] }
    ∧ AgreeButCtrl (inPhase .x1 true) { inPhase .x1 true with cpha := true }
    ∧ (∃ t, core.run 1 (inPhase .x1 true) = .next t)
    ∧ ∀ r u, Input.host r ∈ (inPhase .x1 true).inputs → r.toWord = .ok u → decode u ≠ .ok .rdCtrl :=
  ⟨rfl, rfl, ⟨_, rfl⟩, by simp [inPhase]⟩
theorem witness_ConsumedTcStaysClear :
    selected.tc = false ∧ selected.xfer = none ∧ (nextOf (step selected)).isSome
    ∧ ∀ r u w, selected.inputs.head? = some (.host r) → r.toWord = .ok u → decode u ≠ .ok (.tx w) :=
  ⟨by decide, by decide, by rfl, by simp [selected, State.reset]⟩
theorem witness_RenderingHoldsBusy :
    ({ lastHeld with inputs := [.host (.reg 0x01C00000000)] } : State).fact = true
    ∧ (nextOf (step { lastHeld with inputs := [.host (.reg 0x01C00000000)] })).map (·.fact) = some false := by
  decide
theorem witness_WireBitsAndByteLanes : [true, false, true, false, false, false, false, true].length = 8
    ∧ 7 < 8 ∧ 0 < 8 ∧ 3 < 4 := by decide
theorem witness_XferReturnsTheAnswer :
    (Driver.start (xferByte 0 0 0xA5 1 ++ [.halt])).prog = xferByte 0 0 0xA5 1 ++ [.halt]
    ∧ (Driver.start (xferByte 0 0 0xA5 1 ++ [.halt])).pc = 0
    ∧ (Driver.start (xferByte 0 0 0xA5 1 ++ [.halt])).halted = false
    ∧ (Driver.start (xferByte 0 0 0xA5 1 ++ [.halt])).block.busy = false := by decide

end Sys2Proof.Tests
end

section
/-! What a step does to the serial pins: the trace and chip-select after it (10_state.md R27). -/

namespace Sys2Proof.Machine

/-- The trace and chip-select of `t` are those of `s` after at most one pin event (R27). -/
def AtMostOnePinEvent (s t : State) : Prop :=
  (t.trace = s.trace ∧ t.cs = s.cs)
  ∨ (t.trace = s.trace ++ [.csLow] ∧ s.cs = false ∧ t.cs = true)
  ∨ (t.trace = s.trace ++ [.csHigh] ∧ s.cs = true ∧ t.cs = false)
  ∨ ∃ m r, t.trace = s.trace ++ [.xchg m r] ∧ t.cs = s.cs

namespace AtMostOnePinEvent

variable {s t : State}

theorem of_pins_kept (htrace : t.trace = s.trace) (hcs : t.cs = s.cs) : AtMostOnePinEvent s t :=
  .inl ⟨htrace, hcs⟩

theorem of_csLow (htrace : t.trace = s.trace ++ [.csLow]) (hs : s.cs = false) (ht : t.cs = true) :
    AtMostOnePinEvent s t :=
  .inr (.inl ⟨htrace, hs, ht⟩)

theorem of_csHigh (htrace : t.trace = s.trace ++ [.csHigh]) (hs : s.cs = true) (ht : t.cs = false) :
    AtMostOnePinEvent s t :=
  .inr (.inr (.inl ⟨htrace, hs, ht⟩))

theorem of_xchg {m r : Byte} (htrace : t.trace = s.trace ++ [.xchg m r]) (hcs : t.cs = s.cs) :
    AtMostOnePinEvent s t :=
  .inr (.inr (.inr ⟨m, r, htrace, hcs⟩))

end AtMostOnePinEvent

/-- Of the transactions only the chip-select commands that find the pin otherwise drive it (R68, R69). -/
theorem ExecEffect.atMostOnePinEvent {s t : State} {i : Instr} (h : ExecEffect s i t) :
    AtMostOnePinEvent s t := by
  cases h with
  | csAssert _ hc => exact .of_csLow rfl hc rfl
  | csDeassert _ hc => exact .of_csHigh rfl hc rfl
  | _ => exact .of_pins_kept (by simp) (by simp)

/-- A turn of the engine exchanges one byte, drives chip-select in CSLO or CSHI, or leaves the pins.
That CSLO finds chip-select deasserted and CSHI finds it asserted is what the invariant gives. -/
theorem engineTurn_atMostOnePinEvent (miso : Byte) {s : State} (hlo : s.seq = .cslo → s.cs = false)
    (hhi : s.seq = .cshi → s.cs = true) : AtMostOnePinEvent s (engineTurn miso s) := by
  obtain ⟨_, -, h⟩ | ⟨-, hq, h⟩ | ⟨-, -, h⟩ | ⟨-, -, h⟩ | ⟨-, -, h⟩ | ⟨-, hq, h⟩ | ⟨-, -, h⟩
    | ⟨-, -, -, -, _, _, -, h⟩ | ⟨-, -, -, h⟩ := engineTurn_cases miso s <;> rw [h]
  · exact .of_xchg rfl rfl
  · exact .of_csLow rfl (hlo hq) rfl
  · exact .of_xchg rfl rfl
  · exact .of_xchg rfl rfl
  · exact .of_xchg rfl rfl
  · exact .of_csHigh rfl (hhi hq) rfl
  · exact .of_pins_kept rfl rfl
  · exact .of_pins_kept rfl rfl
  · exact .of_pins_kept rfl rfl

/-- A step from a state with the invariant makes at most one pin event. -/
theorem step_atMostOnePinEvent {s t : State} (hinv : Inv s) (h : step s = .next t) :
    AtMostOnePinEvent s t := by
  obtain ⟨_, _, _, _, -, -, -, he⟩ | ⟨miso, inputs, draws, rfl⟩ := step_cases h
  · exact (exec_effect he).atMostOnePinEvent
  · exact engineTurn_atMostOnePinEvent miso (s := { s with inputs := inputs, draws := draws })
      (fun hq => hinv.sample_unselected (.inl hq))
      (fun hq => hinv.sample_selected (.inr (.inr (.inr hq))))

/-- Settles O51, by the cases of a step and, for the engine's CSLO and CSHI, the invariant's bracket. -/
theorem traceRecordsEveryPinEvent : Obligations.TraceRecordsEveryPinEvent :=
  fun _ _ => step_atMostOnePinEvent

end Sys2Proof.Machine
end

section
/-! The register window (20_memory.md): which requests are refused (R33, R34), what a read can change
(R39), and the orders of the serial bits and of the byte lanes (R35, R36). -/

namespace Sys2Proof.Machine

/-! ### Requests without a step -/

/-- A word at an unaligned offset is no transaction (R33, R56). -/
theorem decode_of_unaligned {t : TWord} (h : (tOff t).toNat % 4 ≠ 0) :
    decode t = .error .offsetNotAligned := by
  have hlow : (tOff t).extractLsb' 0 2 ≠ 0 := fun h0 =>
    h (by simpa [BitVec.extractLsb'_toNat] using congrArg BitVec.toNat h0)
  rw [decode, if_pos hlow]

theorem windowOffset_of_outside {addr : Nat}
    (h : addr < Config.base ∨ Config.base + 256 ≤ addr) : windowOffset addr = none := by
  rw [windowOffset, if_neg]
  simp only [Config.window]
  omega

theorem windowOffset_of_inside {addr : Nat} (hlo : Config.base ≤ addr)
    (hhi : addr < Config.base + 256) : windowOffset addr = some (addr - Config.base) := by
  rw [windowOffset, if_pos ⟨hlo, hhi⟩]

/-- An address outside the window is not the block's, whatever the width (R34). -/
theorem admitBus_of_outside {a : BusAccess}
    (h : a.addr < Config.base ∨ Config.base + 256 ≤ a.addr) : admitBus a = .error .outsideWindow := by
  rw [admitBus, windowOffset_of_outside h]

/-- In the window an access of another width than 4 bytes, or at an unaligned offset, is not
admitted (R33). -/
theorem admitBus_of_not_admitted {a : BusAccess} (hlo : Config.base ≤ a.addr)
    (hhi : a.addr < Config.base + 256) (h : a.size ≠ 4 ∨ (a.addr - Config.base) % 4 ≠ 0) :
    admitBus a = .error .notAdmitted := by
  rw [admitBus, windowOffset_of_inside hlo hhi]
  exact if_neg (not_and_or.mpr h)

/-- The host's turn with a request that has no transaction word is refused as admission says. -/
theorem step_of_toWord_error {s : State} {r : Request} {rest : List Input} {e : Refusal}
    (hin : s.inputs = .host r :: rest) (h : r.toWord = .error e) : step s = .refused e := by
  rw [step_of_host hin, hostTurn, h]

/-- The host's turn with a word that is no transaction is refused as not admitted. -/
theorem step_of_decode_error {s : State} {r : Request} {rest : List Input} {t : TWord}
    (hin : s.inputs = .host r :: rest) (ht : r.toWord = .ok t)
    (hd : decode t = .error .offsetNotAligned) : step s = .refused .notAdmitted := by
  simp only [step_of_host hin, hostTurn, ht, hd]

/-- Settles O12: the decoder refuses an unaligned word, admission the bus accesses. -/
theorem unadmittedTransactionsRefused : Obligations.UnadmittedTransactionsRefused :=
  fun _ _ =>
    ⟨fun _ hoff hin => step_of_decode_error hin rfl (decode_of_unaligned hoff),
      fun _ hlo hhi h hin => step_of_toWord_error hin (admitBus_of_not_admitted hlo hhi h)⟩

/-- Settles O13: admission judges the address first. -/
theorem addressesOutsideTheWindowRefused : Obligations.AddressesOutsideTheWindowRefused :=
  fun _ _ _ h hin => step_of_toWord_error hin (admitBus_of_outside h)

/-! ### What a read can change -/

/-- The transactions that BUSY rejects are writes (R111). -/
theorem NeedsSequencer.tWe_encode {i : Instr} (h : NeedsSequencer i) : tWe (encode i) = true := by
  obtain ⟨_, rfl⟩ | ⟨_, rfl⟩ | rfl | rfl | ⟨_, rfl⟩ | ⟨_, rfl⟩ := h <;> exact tWe_mkT _ _ _

/-- A read of another register than STATUS and FMT_DATA changes only the values read (R39). -/
theorem ExecEffect.eq_of_plain_read {s t : State} {i : Instr} (h : ExecEffect s i t)
    (hread : tWe (encode i) = false) (hstatus : i ≠ .rdStatus) (hdata : i ≠ .rdFmtData) :
    t = { s with reads := t.reads } := by
  cases h with
  | read => rfl
  | unchanged => rfl
  | rdStatus => exact absurd rfl hstatus
  | rdFmtData => exact absurd rfl hdata
  | busy _ _ hi => simp [hi.tWe_encode] at hread
  | _ => simp [encode] at hread

theorem exec_rdStatus_eq_next {s t : State} (h : exec .rdStatus s = .next t) :
    t = State.returned s.statusWord { s with tc := false } :=
  (answer_eq_next _ _ _).mp h

theorem exec_rdFmtData_eq_next {s t : State} (h : exec .rdFmtData s = .next t) :
    t = s.popFmtData.returned s.fmtDataWord :=
  (answer_eq_next _ _ _).mp h

/-- Settles O46: of the effects of a transaction, a read has that of a plain read, of RD_STATUS, or of
RD_FMT_DATA, which pops nothing where nothing is held. -/
theorem readSideEffects : Obligations.ReadSideEffects := by
  intro s t i hread h
  refine ⟨(exec_effect h).eq_of_plain_read hread, ?_, ?_, ?_⟩
  · rintro rfl
    rw [exec_rdStatus_eq_next h]
    rfl
  · rintro rfl hv
    rw [exec_rdFmtData_eq_next h, State.popFmtData_of_not_fvalid s hv]
    rfl
  · rintro rfl -
    simp [exec_rdFmtData_eq_next h]

/-! ### The order of the bits on the wire -/

/-- MOSI carries bit `7 - n` at time `n` (R36). -/
theorem mosiBits_eq_map (b : Byte) :
    mosiBits b = (List.range 8).map fun n => b.getLsbD (7 - n) := rfl

theorem shiftIn_concat (levels : List Bool) (level : Bool) :
    shiftIn (levels ++ [level]) = shiftInBit (shiftIn levels) level := by
  simp [shiftIn]

/-- A new level becomes bit 0, and the bits received before move up by one (R36). -/
theorem getLsbD_shiftInBit (received : Byte) (level : Bool) {n : Nat} (hn : n < 8) :
    (shiftInBit received level).getLsbD n = if n = 0 then level else received.getLsbD (n - 1) := by
  have h : (shiftInBit received level).getLsbD n
      = (received.extractLsb' 0 7 ++ BitVec.ofBool level).getLsbD n := rfl
  rw [h, getLsbD_append_ofBool, BitVec.getLsbD_extractLsb']
  simp [show n - 1 < 7 by omega]

/-- The bits of a received byte, from bit 0 on, are the levels from the last back to the first (R36). -/
theorem getLsbD_shiftIn (levels : List Bool) :
    ∀ n < 8, (shiftIn levels).getLsbD n = levels.reverse[n]?.getD false := by
  induction levels using List.reverseRecOn with
  | nil => simp [shiftIn]
  | append_singleton levels level ih =>
    intro n hn
    rw [shiftIn_concat, getLsbD_shiftInBit _ _ hn, List.reverse_concat]
    cases n with
    | zero => simp
    | succ n => simpa using ih n (by omega)

/-! ### Byte lanes -/

theorem getLsbD_byteLane (k : Nat) (v : Word) {n : Nat} (hn : n < 8) :
    (byteLane k v).getLsbD n = v.getLsbD (8 * k + n) := by
  rw [byteLane, BitVec.getLsbD_extractLsb', decide_eq_true hn, Bool.true_and]

/-- The four byte lanes carry the whole register (R35). -/
theorem ofByteLanes_byteLane (v : Word) :
    ofByteLanes (byteLane 0 v) (byteLane 1 v) (byteLane 2 v) (byteLane 3 v) = v := by
  have hhigh : byteLane 3 v ++ byteLane 2 v = v.extractLsb' 16 16 :=
    BitVec.extractLsb'_append_extractLsb'_eq_extractLsb' rfl
  have hupper : byteLane 3 v ++ byteLane 2 v ++ byteLane 1 v = v.extractLsb' 8 24 := by
    rw [hhigh]
    exact BitVec.extractLsb'_append_extractLsb'_eq_extractLsb' rfl
  calc ofByteLanes (byteLane 0 v) (byteLane 1 v) (byteLane 2 v) (byteLane 3 v)
      = v.extractLsb' 8 24 ++ byteLane 0 v := congrArg (· ++ byteLane 0 v) hupper
    _ = v.extractLsb' 0 32 := BitVec.extractLsb'_append_extractLsb'_eq_extractLsb' rfl
    _ = v := BitVec.extractLsb'_eq_self

/-- Settles O59, by the bits of the wire's shift and of the byte lanes. -/
theorem wireBitsAndByteLanes : Obligations.WireBitsAndByteLanes := by
  refine ⟨fun b n hn => ?_, fun levels hlen n hn => ?_,
    fun v => ⟨fun k n _ hn => getLsbD_byteLane k v hn, ofByteLanes_byteLane v⟩⟩
  · simp [mosiBits_eq_map, List.getElem?_range hn]
  · rw [getLsbD_shiftIn levels _ (by omega), List.getElem?_reverse (by omega),
      show levels.length - 1 - (7 - n) = n by omega, List.getElem?_eq_getElem (by omega)]
    rfl

end Sys2Proof.Machine
end

section
/-! Illegal command words (30_encoding.md R57): which words of a write of CMD are no command, and what
they do (43_control.md R99, 60_exceptions.md R110). -/

namespace Sys2Proof.Machine

/-! ### The fields of a command word as numbers -/

/-- OP is the top byte of the word (R53). -/
theorem op_eq_iff (w : Word) (op : Byte) :
    w.extractLsb' 24 8 = op ↔ w.toNat / 2 ^ 24 = op.toNat := by
  have hop : (w.extractLsb' 24 8).toNat = w.toNat / 2 ^ 24 := by
    rw [BitVec.extractLsb'_toNat, Nat.shiftRight_eq_div_pow]
    omega
  rw [← BitVec.toNat_inj, hop]

/-- The ARG bits from bit `k` up are the reserved ones of an OP whose operand has `k` bits (R54). -/
theorem arg_high_eq_zero_iff (w : Word) {k n : Nat} (hkn : k + n = 24) :
    (w.extractLsb' 0 24).extractLsb' k n = 0 ↔ w.toNat % 2 ^ 24 / 2 ^ k = 0 := by
  have hlt : w.toNat % 2 ^ 24 / 2 ^ k < 2 ^ n :=
    Nat.div_lt_of_lt_mul (by rw [← Nat.pow_add, hkn]; exact Nat.mod_lt _ (by decide))
  rw [← BitVec.toNat_inj, BitVec.extractLsb'_toNat, BitVec.extractLsb'_toNat, Nat.shiftRight_zero,
    Nat.shiftRight_eq_div_pow, Nat.mod_eq_of_lt hlt]
  rfl

theorem arg_eq_zero_iff (w : Word) : w.extractLsb' 0 24 = 0 ↔ w.toNat % 2 ^ 24 = 0 := by
  rw [← BitVec.toNat_inj, BitVec.extractLsb'_toNat, Nat.shiftRight_zero]
  rfl

/-! ### The illegal words -/

/-- A write of CMD decodes by its command word (R53). -/
theorem decode_write_cmd (w : Word) : decode (mkT true 0x10 w) = .ok (decodeCommand w) := by
  rw [decode_mkT, if_neg (by decide), if_neg (by decide), if_pos rfl, decodeWrite, if_pos rfl]

/-- The illegal command words (R57), by the branches of the decoder. -/
theorem decodeCommand_eq_cmdIllegal_iff (w : Word) :
    decodeCommand w = .cmdIllegal w
      ↔ 0x06000000 ≤ w.toNat
        ∨ (w.toNat / 2 ^ 24 = 3 ∧ w.toNat % 2 ^ 24 / 2 ^ 8 ≠ 0)
        ∨ (w.toNat / 2 ^ 24 = 4 ∧ w.toNat % 2 ^ 24 / 2 ≠ 0)
        ∨ (w.toNat / 2 ^ 24 ∈ [0, 1, 2, 5] ∧ w.toNat % 2 ^ 24 ≠ 0) := by
  simp only [decodeCommand, op_eq_iff, arg_eq_zero_iff, arg_high_eq_zero_iff, BitVec.reduceToNat,
    Nat.reduceAdd, List.mem_cons, List.not_mem_nil, or_false]
  split_ifs with hnop hassert hdeassert hsample hformat hclrerr
  case neg =>
    -- no command: OP is above 5, or the OP is one of the six and its reserved bits are not 0
    simp only [true_iff]
    omega
  all_goals
    -- a command: its OP and its reserved bits contradict each alternative
    simp only [false_iff]
    omega

/-- CMD_ILLEGAL sets ERR_ILLOP and nothing else, BUSY or not (R99, R110). -/
theorem exec_cmdIllegal (w : Word) (s : State) :
    exec (.cmdIllegal w) s = .next { s with eIllop := true } := rfl

/-- Settles O8, by the branches of the command decoder and the rejection's one flag. -/
theorem illegalCommandWordsRejected : Obligations.IllegalCommandWordsRejected := by
  intro w s
  rw [decode_write_cmd, Except.ok.injEq]
  exact ⟨decodeCommand_eq_cmdIllegal_iff w, exec_cmdIllegal w s⟩

end Sys2Proof.Machine
end

section
/-! The SPI unit (40_spi_transfer.md): CTRL and STATUS, the start of an exchange and its completion, and
the chip-select commands (R63 to R70). -/

namespace Sys2Proof.Machine

/-! ### Transactions of the sequencer -/

/-- A transaction that needs the sequencer, while BUSY, sets ERR_BUSY and nothing else (R111). -/
theorem exec_of_busy {i : Instr} {s : State} (hi : NeedsSequencer i) (h : s.busy = true) :
    exec i s = .next { s with eBusy := true } := by
  obtain ⟨_, rfl⟩ | ⟨_, rfl⟩ | rfl | rfl | ⟨_, rfl⟩ | ⟨_, rfl⟩ := hi
  case inr.inr.inr.inr.inl => exact (execSample_eq_next _ _ _).mpr (.inl ⟨h, rfl⟩)
  all_goals exact unlessBusy_of_busy h _

/-! ### CTRL -/

/-- CLKDIV is the byte above the lowest one (R20). -/
theorem ctrlClkdiv_eq_ofNat (w : Word) : ctrlClkdiv w = BitVec.ofNat 8 (w.toNat / 256) :=
  congrArg (BitVec.ofNat 8) (Nat.shiftRight_eq_div_pow w.toNat 8)

/-- A bit of CTRL (R20): the reserved bits 7:2 and 31:16 are 0. -/
theorem State.getLsbD_ctrlWord (s : State) (n : Nat) :
    s.ctrlWord.getLsbD n =
      if n = 0 then s.cpol
      else if n = 1 then s.cpha
      else decide (8 ≤ n) && s.clkdiv.getLsbD (n - 8) := by
  have h : s.ctrlWord.getLsbD n =
      (0#16 ++ s.clkdiv ++ 0#6 ++ BitVec.ofBool s.cpha ++ BitVec.ofBool s.cpol).getLsbD n := rfl
  rw [h, getLsbD_append_ofBool, getLsbD_append_ofBool, BitVec.getLsbD_append, BitVec.getLsbD_append]
  rcases n with _ | _ | n
  · simp
  · simp
  · rcases Nat.lt_or_ge n 6 with hn | hn
    · simp [hn, show ¬ 8 ≤ n + 1 + 1 by omega]
    · simpa [show ¬ n < 6 by omega, show 8 ≤ n + 1 + 1 by omega, show n + 1 + 1 - 8 = n - 6 by omega]
        using BitVec.lt_of_getLsbD

/-- The bits of CTRL that are not reserved (R20): 0, 1 and 15:8. -/
theorem getLsbD_ctrlMask : ∀ n < 32,
    (0x0000FF03 : Word).getLsbD n = decide (n = 0 ∨ n = 1 ∨ 8 ≤ n ∧ n < 16) := by decide

/-- CTRL holds the written value but for the reserved bits, which read 0 (R64). -/
theorem ctrlWord_of_wrCtrl (s : State) (w : Word) :
    State.ctrlWord { s with cpol := ctrlCpol w, cpha := ctrlCpha w, clkdiv := ctrlClkdiv w }
      = w &&& 0x0000FF03 := by
  apply BitVec.eq_of_getLsbD_eq
  intro n hn
  rw [State.getLsbD_ctrlWord, BitVec.getLsbD_and, getLsbD_ctrlMask n hn]
  by_cases h0 : n = 0
  · simp [h0, ctrlCpol]
  by_cases h1 : n = 1
  · simp [h1, ctrlCpha]
  by_cases h8 : 8 ≤ n
  · simp [h0, h1, h8, ctrlClkdiv, Nat.sub_lt_iff_lt_add h8, Bool.and_comm]
  · simp [h0, h1, h8]

/-- Settles O16: CTRL as a read returns it. -/
theorem rdCtrlReturnsTheFields : Obligations.RdCtrlReturnsTheFields :=
  fun s => ⟨s.ctrlWord, rfl, s.ctrlWord_toNat⟩

/-- Settles O17, by the Busy check and, for the following read, the bits of CTRL. -/
theorem wrCtrlSetsTheFields : Obligations.WrCtrlSetsTheFields := by
  refine fun s w => ⟨exec_of_busy (.inl ⟨w, rfl⟩), fun hb => ?_⟩
  have hexec : exec (.wrCtrl w) s
      = .next { s with cpol := ctrlCpol w, cpha := ctrlCpha w, clkdiv := ctrlClkdiv w } :=
    unlessBusy_of_not_busy hb _
  refine ⟨by rw [hexec, ctrlClkdiv_eq_ofNat]; rfl, fun t ht => ?_⟩
  obtain rfl := Host.Outcome.next.inj (hexec.symm.trans ht)
  rw [← ctrlWord_of_wrCtrl s w]
  rfl

/-! ### STATUS and the data registers -/

/-- An error's STATUS bit is its sticky flag (R109). -/
theorem State.getLsbD_statusWord_statusBit (s : State) (e : ErrorCode) :
    s.statusWord.getLsbD e.statusBit = s.errorFlag e := by
  cases e <;> exact s.getLsbD_statusWord _

/-- The reserved bits of STATUS are 0 (R21). -/
theorem State.getLsbD_statusWord_reserved (s : State) {n : Nat} (h : n = 6 ∨ n = 7 ∨ 12 ≤ n) :
    s.statusWord.getLsbD n = false := by
  rw [s.getLsbD_statusWord]
  split
  case h_11 => rfl
  all_goals omega

/-- Settles O18, by the bits of STATUS. -/
theorem rdStatusReturnsTheFlags : Obligations.RdStatusReturnsTheFlags :=
  fun s => ⟨s.statusWord, rfl, s.getLsbD_statusWord 0, s.getLsbD_statusWord 1, s.getLsbD_statusWord 2,
    s.getLsbD_statusWord 3, s.getLsbD_statusWord 4, s.getLsbD_statusWord 5,
    s.getLsbD_statusWord_statusBit, fun _ => s.getLsbD_statusWord_reserved⟩

/-- RXDATA is the last received byte, zero-extended (R23). -/
theorem State.rxWord_toNat (s : State) : s.rxWord.toNat = s.rx.toNat :=
  BitVec.toNat_setWidth_of_le (by decide)

/-- Settles O20: RXDATA and VALUE as a read returns them. -/
theorem rdRxdataAndRdValue : Obligations.RdRxdataAndRdValue :=
  fun s => ⟨⟨s.rxWord, rfl, s.rxWord_toNat⟩, rfl⟩

/-! ### An exchange -/

/-- TXBYTE is the low byte of WDATA (R22). -/
theorem txByte_eq_ofNat (w : Word) : txByte w = BitVec.ofNat 8 (w.toNat % 256) :=
  BitVec.eq_of_toNat_eq (by simp [txByte])

/-- Settles O19, by the Busy check. -/
theorem txStartsAnExchange : Obligations.TxStartsAnExchange := by
  refine fun s w => ⟨exec_of_busy (.inr (.inl ⟨w, rfl⟩)), fun hb => ?_⟩
  rw [← txByte_eq_ofNat]
  exact unlessBusy_of_not_busy hb _

/-- Settles O22: a byte in flight has the engine's first turn, and enables the SPI unit's step. -/
theorem xdoneCompletesTheExchange : Obligations.XdoneCompletesTheExchange := by
  refine fun s miso => ⟨fun m hm => engineTurn_of_xfer miso hm, ?_⟩
  rw [Option.isSome_iff_ne_none, ← Option.ne_none_iff_exists']
  exact (xdoneStep_eq_none miso s).not

/-! ### Chip-select -/

/-- CS_ASSERT, not BUSY (R68). -/
theorem exec_csAssert_of_not_busy {s : State} (h : s.busy = false) :
    exec .csAssert s = .next (if s.cs then s else s.lowerCsN) :=
  unlessBusy_of_not_busy h _

/-- CS_DEASSERT, not BUSY (R69). -/
theorem exec_csDeassert_of_not_busy {s : State} (h : s.busy = false) :
    exec .csDeassert s = .next (if s.cs then s.raiseCsN else s) :=
  unlessBusy_of_not_busy h _

/-- A command that takes no operand is illegal with an ARG bit set (R54, R57). -/
theorem decode_command_of_arg_ne_zero {op : Byte} {arg : BitVec 24}
    (hop : op.toNat ∈ [0, 1, 2, 5]) (harg : arg ≠ 0) :
    decode (mkT true 0x10 (commandWord op arg)) = .ok (.cmdIllegal (commandWord op arg)) := by
  have hopNat : (commandWord op arg).toNat / 2 ^ 24 = op.toNat :=
    (op_eq_iff _ op).mp (op_commandWord op arg)
  have hargNat : (commandWord op arg).toNat % 2 ^ 24 ≠ 0 := by
    rwa [Ne, ← arg_eq_zero_iff, arg_commandWord]
  rw [decode_write_cmd, (decodeCommand_eq_cmdIllegal_iff _).mpr]
  exact .inr (.inr (.inr ⟨hopNat ▸ hop, hargNat⟩))

/-- Settles O21, by the Busy check and the level that the command finds on chip-select. -/
theorem chipSelectCommands : Obligations.ChipSelectCommands := by
  refine fun s => ⟨fun hb => ⟨exec_of_busy (by simp [NeedsSequencer]) hb,
    exec_of_busy (by simp [NeedsSequencer]) hb⟩, fun hb hc => ?_, fun hb hc => ?_,
    fun op hop arg harg => decode_command_of_arg_ne_zero ?_ harg⟩
  · rw [exec_csAssert_of_not_busy hb, exec_csDeassert_of_not_busy hb, hc]
    exact ⟨rfl, rfl⟩
  · rw [exec_csAssert_of_not_busy hb, exec_csDeassert_of_not_busy hb, hc]
    exact ⟨rfl, rfl⟩
  · revert op
    decide

end Sys2Proof.Machine
end

section
/-! The ACQ unit (41_adc_sample.md): how SAMPLE starts the sequence, what each of its phases does, and
the Sample that the last one computes (R74 to R83), with the length of its rendering. -/

namespace Sys2Proof.Machine

/-! ### SAMPLE -/

theorem toNat_commandWord_div (op : Byte) (arg : BitVec 24) :
    (commandWord op arg).toNat / 2 ^ 24 = op.toNat :=
  (op_eq_iff _ op).mp (op_commandWord op arg)

theorem toNat_commandWord_mod (op : Byte) (arg : BitVec 24) :
    (commandWord op arg).toNat % 2 ^ 24 = arg.toNat := by
  have h := congrArg BitVec.toNat (arg_commandWord op arg)
  rwa [BitVec.extractLsb'_toNat, Nat.shiftRight_zero] at h

/-- ARG[23:8] of SAMPLE is reserved (R54): a word with one of these bits set is illegal (R57). -/
theorem decode_sample_of_reserved_arg {arg : BitVec 24} (h : 256 ≤ arg.toNat) :
    decode (mkT true 0x10 (commandWord 0x03 arg)) = .ok (.cmdIllegal (commandWord 0x03 arg)) := by
  rw [decode_write_cmd, (decodeCommand_eq_cmdIllegal_iff _).mpr]
  refine .inr (.inl ⟨toNat_commandWord_div 0x03 arg, ?_⟩)
  rw [toNat_commandWord_mod]
  omega

/-- Settles O23, by the outcomes of SAMPLE's checks, in their order. -/
theorem sampleStartsTheSequence : Obligations.SampleStartsTheSequence := by
  refine fun s c => ⟨fun hb hc hn => ?_, exec_of_busy (by simp [NeedsSequencer]), fun hb hc => ?_,
    fun hb hc hn => ?_, fun _ => decode_sample_of_reserved_arg⟩
  · exact (execSample_eq_next c s _).mpr (.inr (.inr (.inr ⟨hb, hc, by omega, rfl⟩)))
  · exact (execSample_eq_next c s _).mpr (.inr (.inl ⟨hb, hc, rfl⟩))
  · exact (execSample_eq_next c s _).mpr (.inr (.inr (.inl ⟨hb, hc, hn, rfl⟩)))

/-! ### The turn of each phase -/

section
variable {s : State} (miso : Byte) (hx : s.xfer = none)
include hx

theorem engineTurn_of_cslo (hq : s.seq = .cslo) : engineTurn miso s = phaseCslo s :=
  engineTurn_of_acqStep hx (by simp only [acqStep, hq])

theorem engineTurn_of_x1 (hq : s.seq = .x1) : engineTurn miso s = phaseX1 miso s :=
  engineTurn_of_acqStep hx (by simp only [acqStep, hq])

theorem engineTurn_of_x2 (hq : s.seq = .x2) : engineTurn miso s = phaseX2 miso s :=
  engineTurn_of_acqStep hx (by simp only [acqStep, hq])

theorem engineTurn_of_x3 (hq : s.seq = .x3) : engineTurn miso s = phaseX3 miso s :=
  engineTurn_of_acqStep hx (by simp only [acqStep, hq])

theorem engineTurn_of_cshi (hq : s.seq = .cshi) : engineTurn miso s = phaseCshi s :=
  engineTurn_of_acqStep hx (by simp only [acqStep, hq])

theorem engineTurn_of_scale (hq : s.seq = .scale) : engineTurn miso s = phaseScale s :=
  engineTurn_of_acqStep hx (by simp only [acqStep, hq])

end

/-- The channel byte keeps the channel's low two bits, in bits 7:6 (R77). -/
theorem channelByte_eq_ofNat (ch : BitVec 3) :
    channelByte ch = BitVec.ofNat 8 (ch.toNat * 64) := by
  apply BitVec.eq_of_toNat_eq
  simp only [channelByte, BitVec.toNat_shiftLeft, BitVec.toNat_setWidth, BitVec.toNat_ofNat,
    Nat.shiftLeft_eq]
  omega

/-- The nibble kept in phase X2 is the answer's low one (R77). -/
theorem highNibble_eq_ofNat (b : Byte) : highNibble b = BitVec.ofNat 4 (b.toNat % 16) :=
  BitVec.eq_of_toNat_eq (by simp [highNibble])

/-- Settles O25: each phase's turn is the phase's rule. -/
theorem acqPhasesStep : Obligations.AcqPhasesStep := by
  refine fun s miso hx => ⟨engineTurn_of_cslo miso hx, engineTurn_of_x1 miso hx, fun hq => ?_,
    engineTurn_of_x3 miso hx, engineTurn_of_cshi miso hx⟩
  rw [engineTurn_of_x2 miso hx hq, ← channelByte_eq_ofNat, ← highNibble_eq_ofNat]
  rfl

/-! ### The Sample -/

/-- The raw word has the nibble above the byte (R80). -/
theorem rawWord_toNat (hi : BitVec 4) (lo : Byte) :
    (rawWord hi lo).toNat = hi.toNat * 256 + lo.toNat := by
  rw [rawWord, BitVec.toNat_append, ← Nat.shiftLeft_add_eq_or_of_lt lo.isLt, Nat.shiftLeft_eq]

/-- The product of a raw word and the scale fits 31 bits (R83). -/
theorem raw_mul_scale_lt (raw : BitVec 12) : raw.toNat * 330000 < 2 ^ 31 := by
  have hraw := raw.isLt
  omega

/-- The Sample as a number: the register's width cuts nothing off (R80, R82). -/
theorem scaleRaw_toNat (raw : BitVec 12) : (scaleRaw raw).toNat = raw.toNat * 330000 / 4096 := by
  have hprod := raw_mul_scale_lt raw
  simp only [scaleRaw, BitVec.toNat_ofNat, Config.refScaleMilli, Config.mult, Config.fullScale,
    Nat.mul_assoc, Nat.reduceMul]
  exact Nat.mod_eq_of_lt (by omega)

/-- A Sample lies in [0, 329919] (R83). -/
theorem scaleRaw_toNat_le (raw : BitVec 12) : (scaleRaw raw).toNat ≤ 329919 := by
  have hraw := raw.isLt
  rw [scaleRaw_toNat]
  omega

/-- Settles O26: the turn stores the raw word and its Sample, whose numbers are R80's. -/
theorem scalePhaseStep : Obligations.ScalePhaseStep :=
  fun s miso hx hq =>
    ⟨rawWord s.hi s.lo, scaleRaw (rawWord s.hi s.lo), engineTurn_of_scale miso hx hq,
      rawWord_toNat s.hi s.lo, scaleRaw_toNat _, scaleRaw_toNat_le _⟩

/-! ### The length of a Sample's rendering -/

/-- The digit buffer of a number below `10 ^ digits` holds at most that many digits, whatever its
capacity. -/
theorem length_digitBuffer_le {digits : Nat} (capacity : Nat) {n : Nat} (hpos : 0 < digits)
    (h : n < 10 ^ digits) : (digitBuffer capacity n).length ≤ digits := by
  induction capacity generalizing n digits with
  | zero => exact Nat.zero_le _
  | succ capacity ih =>
    rw [digitBuffer, List.length_cons]
    split
    case isTrue => exact hpos
    case isFalse hn =>
      obtain ⟨digits, rfl⟩ := Nat.exists_eq_succ_of_ne_zero hpos.ne'
      have hdiv : n / 10 < 10 ^ digits := Nat.div_lt_of_lt_mul (by rwa [← Nat.pow_succ'])
      have hdigits : 0 < digits := Nat.pos_of_ne_zero (by rintro rfl; omega)
      exact Nat.succ_le_succ (ih hdigits hdiv)

theorem length_dec_le {n digits : Nat} (hpos : 0 < digits) (h : n < 10 ^ digits) :
    (dec n).length ≤ digits := by
  rw [dec, List.length_reverse]
  exact length_digitBuffer_le _ hpos h

/-- Below a million milli-units a rendering has at most three digits on each side of the point. -/
theorem length_render_le_seven {x : Word} (h : x.toNat < 10 ^ 6) : (render x).length ≤ 7 := by
  have hint : x.toInt = x.toNat := BitVec.toInt_eq_toNat_of_lt (by omega)
  have hwhole : (dec (x.toNat / 1000)).length ≤ 3 := length_dec_le (by decide) (by omega)
  have hfrac : (dec (x.toNat % 1000)).length ≤ 3 := length_dec_le (by decide) (by omega)
  simp only [render, hint, Config.milli, Int.natAbs_natCast, List.length_append, List.length_cons,
    List.length_nil, if_neg (Int.natCast_nonneg x.toNat).not_gt]
  omega

/-- Settles O28: the bounds hold of every raw word, and the largest one attains them. -/
theorem scalingDoesNotOverflow : Obligations.ScalingDoesNotOverflow := by
  intro raw
  have hle := scaleRaw_toNat_le raw
  refine ⟨raw_mul_scale_lt raw, hle, ?_, length_render_le_seven (by omega), fun hmax => ?_⟩
  · rw [BitVec.toInt_eq_toNat_of_lt (by omega)]
    exact Int.natCast_nonneg _
  · obtain rfl : raw = 4095 := BitVec.eq_of_toNat_eq hmax
    decide

end Sys2Proof.Machine
end

section
/-! The FMT unit (42_formatter.md): its input register and command (R87 to R89), the text and the length
of a rendering (R90, R91, R96), and the byte that EMIT moves to the host's read (R93, R94). -/

namespace Sys2Proof.Machine

/-! ### The input register and the command -/

/-- Settles O31: the write's one field, and the read's answer. -/
theorem fmtInWriteAndRead : Obligations.FmtInWriteAndRead :=
  fun _ _ => ⟨rfl, rfl⟩

/-- FORMAT, not BUSY: the bytes are those of the input as it is now (R89). -/
theorem exec_format_of_not_busy {s : State} (src : FmtSrc) (h : s.busy = false) :
    exec (.format src) s = .next { s with fpend := render (formatInput src s), fact := true } :=
  unlessBusy_of_not_busy h _

/-- ARG[23:1] of FORMAT is reserved (R54): a word with one of these bits set is illegal (R57). -/
theorem decode_format_of_reserved_arg {arg : BitVec 24} (h : 2 ≤ arg.toNat) :
    decode (mkT true 0x10 (commandWord 0x04 arg)) = .ok (.cmdIllegal (commandWord 0x04 arg)) := by
  rw [decode_write_cmd, (decodeCommand_eq_cmdIllegal_iff _).mpr]
  refine .inr (.inr (.inl ⟨toNat_commandWord_div 0x04 arg, ?_⟩))
  rw [toNat_commandWord_mod]
  omega

/-- Settles O32, by the Busy check and, for the reserved bits, the illegal command words. -/
theorem formatStartsARendering : Obligations.FormatStartsARendering :=
  fun _ => ⟨fun hb _ => exec_of_busy (by simp [NeedsSequencer]) hb,
    fun hb => ⟨exec_format_of_not_busy .fmtIn hb, exec_format_of_not_busy .value hb⟩,
    fun _ => decode_format_of_reserved_arg⟩

/-! ### The decimal spelling -/

/-- The digit buffer of a one-digit number. -/
theorem digitBuffer_of_lt (capacity : Nat) {n : Nat} (h : n < 10) :
    digitBuffer (capacity + 1) n = [BitVec.ofNat 8 (0x30 + n)] := by
  rw [digitBuffer, if_pos (Nat.div_eq_of_lt h), Nat.mod_eq_of_lt h]

/-- The digit buffer of a longer number: its last digit, then the others. -/
theorem digitBuffer_of_le (capacity : Nat) {n : Nat} (h : 10 ≤ n) :
    digitBuffer (capacity + 1) n
      = BitVec.ofNat 8 (0x30 + n % 10) :: digitBuffer capacity (n / 10) := by
  rw [digitBuffer, if_neg (Nat.div_pos h (by decide)).ne']

/-- A digit's code as a number: the byte's width cuts nothing off. -/
theorem toNat_digitCode {d : Nat} (h : d < 10) : (BitVec.ofNat 8 (0x30 + d)).toNat = d + 0x30 := by
  rw [BitVec.toNat_ofNat, Nat.mod_eq_of_lt (by omega), Nat.add_comm]

/-- A digit's code is the ASCII code of the digit (R90). -/
theorem ofNat_digitCode {d : Nat} (h : d < 10) :
    Char.ofNat (BitVec.ofNat 8 (0x30 + d)).toNat = d.digitChar := by
  rw [toNat_digitCode h, Nat.add_comm, ← Nat.toNat_digitChar_of_lt_ten h, Char.ofNat_toNat]

/-- A digit buffer that is large enough holds the codes of the number's digits, lowest first (R91). -/
theorem map_toNat_digitBuffer (capacity : Nat) {n : Nat} (hpos : n ≠ 0) (h : n < 10 ^ capacity) :
    (digitBuffer capacity n).map BitVec.toNat = (Nat.digits 10 n).map (· + 0x30) := by
  induction capacity generalizing n with
  | zero => omega
  | succ capacity ih =>
    rcases Nat.lt_or_ge n 10 with hn | hn
    · rw [digitBuffer_of_lt _ hn, Nat.digits_of_lt 10 n hpos hn, List.map_singleton,
        List.map_singleton, toNat_digitCode hn]
    · have hlast := toNat_digitCode (Nat.mod_lt n (by decide : 0 < 10))
      have hdiv : n / 10 < 10 ^ capacity := Nat.div_lt_of_lt_mul (by rwa [← Nat.pow_succ'])
      rw [digitBuffer_of_le _ hn, Nat.digits_def' (by decide) (by omega), List.map_cons,
        List.map_cons, ih (by omega) hdiv, hlast]

/-- Settles O33, by the digit buffer, which `dec` reverses and which holds all ten digits of `n`. -/
theorem decIsTheDecimalSpelling : Obligations.DecIsTheDecimalSpelling := by
  refine fun n hn => ⟨rfl, fun hpos => ?_⟩
  rw [dec, List.map_reverse, map_toNat_digitBuffer _ hpos (by simp only [Config.digitCap]; omega),
    List.map_reverse]

/-! ### The text of a rendering -/

/-- The bytes read as ASCII codes. -/
def asciiText (bytes : List Byte) : String := String.ofList (bytes.map fun b => Char.ofNat b.toNat)

theorem asciiText_append (xs ys : List Byte) : asciiText (xs ++ ys) = asciiText xs ++ asciiText ys := by
  rw [asciiText, List.map_append, String.ofList_append]
  rfl

/-- A digit buffer that is large enough holds the number's decimal characters in reverse, the one
character of 0 too. -/
theorem map_ofNat_digitBuffer (capacity : Nat) {n : Nat} (hpos : 0 < capacity)
    (h : n < 10 ^ capacity) :
    (digitBuffer capacity n).map (fun b => Char.ofNat b.toNat) = (Nat.toDigits 10 n).reverse := by
  induction capacity generalizing n with
  | zero => exact absurd hpos (lt_irrefl 0)
  | succ capacity ih =>
    rcases Nat.lt_or_ge n 10 with hn | hn
    · rw [digitBuffer_of_lt _ hn, Nat.toDigits_of_lt_base hn, List.map_singleton,
        ofNat_digitCode hn, List.reverse_singleton]
    · have hlast := ofNat_digitCode (Nat.mod_lt n (by decide : 0 < 10))
      have hcapacity : 0 < capacity := Nat.pos_of_ne_zero (by rintro rfl; omega)
      have hdiv : n / 10 < 10 ^ capacity := Nat.div_lt_of_lt_mul (by rwa [← Nat.pow_succ'])
      rw [digitBuffer_of_le _ hn, Nat.toDigits_of_base_le (by decide) hn, List.map_cons,
        ih hcapacity hdiv, hlast, List.reverse_concat]

/-- `dec n` is the text of `n` while the digit buffer is large enough (R91, R95). -/
theorem asciiText_dec {n : Nat} (h : n < 10 ^ 10) : asciiText (dec n) = toString n := by
  rw [asciiText, dec, List.map_reverse, Config.digitCap, map_ofNat_digitBuffer 10 (by decide) h,
    List.reverse_reverse, Nat.toString_eq_ofList_toDigits]

/-- The magnitude of a 32-bit value is at most `2 ^ 31` (R90). -/
theorem natAbs_toInt_le (x : Word) : x.toInt.natAbs ≤ 2 ^ 31 := by
  have hlo : -2 ^ 31 ≤ x.toInt := x.le_toInt
  have hhi : x.toInt < 2 ^ 31 := x.toInt_lt
  omega

/-- Settles O34, part by part: the two numbers fit the digit buffer, and the codes of the sign and the
point are those characters'. -/
theorem renderingText : Obligations.RenderingText := by
  intro x
  have hmag := natAbs_toInt_le x
  have hwhole := asciiText_dec (n := x.toInt.natAbs / 1000) (by omega)
  have hfrac := asciiText_dec (n := x.toInt.natAbs % 1000) (by omega)
  have hsign : asciiText (if x.toInt < 0 then [0x2D] else []) = if x.toInt < 0 then "-" else "" := by
    split <;> rfl
  have hpoint : asciiText [0x2E] = "." := rfl
  change asciiText (render x) = _
  rw [render, Config.milli, asciiText_append, asciiText_append, asciiText_append, hsign, hwhole,
    hpoint, hfrac]

/-! ### The length of a rendering -/

/-- Even 0 has one digit (R91). -/
theorem length_dec_pos (n : Nat) : 0 < (dec n).length := by
  rw [dec, List.length_reverse, Config.digitCap, digitBuffer]
  exact Nat.succ_pos _

/-- A rendering is the sign, if there is one, the two numbers and the point (R90). -/
theorem length_render (x : Word) :
    (render x).length = (if x.toInt < 0 then 1 else 0) + (dec (x.toInt.natAbs / 1000)).length + 1
      + (dec (x.toInt.natAbs % 1000)).length := by
  simp only [render, Config.milli, List.length_append, List.length_singleton]
  split <;> rfl

/-- Settles O35: at least one digit on each side of the point, and at most 7 before and 3 after it. -/
theorem renderingLength : Obligations.RenderingLength := by
  intro x
  have hmag := natAbs_toInt_le x
  have hwhole : (dec (x.toInt.natAbs / 1000)).length ≤ 7 := length_dec_le (by decide) (by omega)
  have hfrac : (dec (x.toInt.natAbs % 1000)).length ≤ 3 := length_dec_le (by decide) (by omega)
  have hwholePos := length_dec_pos (x.toInt.natAbs / 1000)
  have hfracPos := length_dec_pos (x.toInt.natAbs % 1000)
  refine ⟨?_, ?_, fun h => length_render_le_seven (by omega)⟩ <;> rw [length_render]
  · omega
  · split <;> omega

/-! ### Emission to the host -/

/-- With no exchange and no sample in flight an enabled EMIT has the engine's turn (R93). -/
theorem engineTurn_of_emitStep {s t : State} (miso : Byte) (hx : s.xfer = none) (hq : s.seq = .idle)
    (h : emitStep s = some t) : engineTurn miso s = t := by
  rw [engineTurn_of_idle hx hq, h, Option.getD_some]

theorem emitStep_isSome_iff (s : State) :
    (emitStep s).isSome ↔ s.fact = true ∧ s.fvalid = false ∧ s.fpend ≠ [] := by
  rw [Option.isSome_iff_ne_none, Ne, emitStep_eq_none, Classical.not_imp, Classical.not_imp]

/-- Settles O37: EMIT has the turn, and LAST says whether nothing is left pending. -/
theorem emitMovesTheNextByte : Obligations.EmitMovesTheNextByte := by
  refine fun s miso => ⟨fun b more hx hq hf hv hp => ?_, emitStep_isSome_iff s⟩
  have hlast : more.isEmpty = decide (more = []) := by cases more <;> simp
  rw [← hlast]
  exact engineTurn_of_emitStep miso hx hq ((emitStep_eq_some s _).mpr ⟨hf, hv, b, more, hp, rfl⟩)

/-- RD_FMT_DATA answers FMT_DATA as it was before the pop (R94). -/
theorem exec_rdFmtData (s : State) :
    exec .rdFmtData s = .next (s.popFmtData.returned s.fmtDataWord) := rfl

/-- Settles O38, by whether a byte is held and whether it is the LAST one. -/
theorem rdFmtDataPops : Obligations.RdFmtDataPops := by
  refine fun s => ⟨s.fmtDataWord, s.fmtDataWord_toNat, fun hv => ?_, fun hv hl => ?_, fun hv hl => ?_⟩
  · rw [exec_rdFmtData, s.popFmtData_of_not_fvalid hv]
    rfl
  · rw [exec_rdFmtData, s.popFmtData_of_fvalid hv, hl, Bool.not_false, Bool.and_true]
    rfl
  · rw [exec_rdFmtData, s.popFmtData_of_fvalid hv, hl, Bool.not_true, Bool.and_false]
    rfl

end Sys2Proof.Machine
end

section
/-! The control commands and the accesses with a fixed result (43_control.md): NOP and the ignored writes
(R97, R102 to R105, R107), CLRERR (R98), and the reads that answer 0 (R100, R101, R106). -/

namespace Sys2Proof.Machine

/-! ### Accesses with a fixed result -/

/-- Settles O40: each of the listed transactions is an ignored write, and NOP takes no operand. -/
theorem ignoredWritesAndNop : Obligations.IgnoredWritesAndNop := by
  refine fun s w k3 k4 k5 => ⟨fun i hi => ?_, fun _ => decode_command_of_arg_ne_zero (by decide)⟩
  simp only [List.mem_cons, List.not_mem_nil, or_false] at hi
  obtain rfl | rfl | rfl | rfl | rfl | rfl | rfl | rfl := hi
  all_goals exact (ignored_eq_next s s).mpr rfl

/-- Settles O42: each of the listed reads answers 0. -/
theorem fixedResultReads : Obligations.FixedResultReads := by
  intro s k3 k4 k5 i hi
  simp only [List.mem_cons, List.not_mem_nil, or_false] at hi
  obtain rfl | rfl | rfl | rfl | rfl := hi
  all_goals exact (answer_eq_next 0x00000000 s _).mpr rfl

/-! ### The error flags -/

@[simp] theorem State.returned_errorFlag (v : Word) (s : State) (e : ErrorCode) :
    (s.returned v).errorFlag e = s.errorFlag e := rfl

@[simp] theorem State.popFmtData_errorFlag (s : State) (e : ErrorCode) :
    s.popFmtData.errorFlag e = s.errorFlag e := by
  cases e <;> simp [State.errorFlag]

/-- A transaction other than CLRERR leaves the error flags or sets one of them (R98, R119). -/
theorem ExecEffect.keeps_errorFlag {s t : State} {i : Instr} {e : ErrorCode} (h : ExecEffect s i t)
    (hi : i ≠ .clrerr) (hs : s.errorFlag e = true) : t.errorFlag e = true := by
  cases h with
  | clrerr => exact absurd rfl hi
  | illegal | busy | badState | invalidChannel => rw [State.setError_errorFlag, hs, Bool.or_true]
  | rdFmtData => rw [State.returned_errorFlag, State.popFmtData_errorFlag, hs]
  | _ => exact hs

/-- Settles O41: CLRERR's own effect, its operand check, and the effects of the other transactions. -/
theorem clrerrClearsTheErrors : Obligations.ClrerrClearsTheErrors :=
  fun _ => ⟨rfl, fun _ => decode_command_of_arg_ne_zero (by decide),
    fun _ _ _ hi h hs => (exec_effect h).keeps_errorFlag hi hs⟩

end Sys2Proof.Machine
end

section
/-! The errors (60_exceptions.md): which transaction is rejected with which error (R110 to R113), that a
rejection is precise (R118), and that the error flags are sticky (R119). -/

namespace Sys2Proof.Machine

/-! ### Rejections -/

/-- The transaction `i` meets, in the state `s`, the condition of an error (R110 to R113). -/
def Rejects (s : State) (i : Instr) : ErrorCode → Prop
  | .illegalCommand => ∃ w, i = .cmdIllegal w
  | .busy => s.busy = true ∧ NeedsSequencer i
  | .badState => s.busy = false ∧ s.cs = true ∧ ∃ c, i = .sample c
  | .invalidChannel => s.busy = false ∧ s.cs = false ∧ ∃ c, i = .sample c ∧ 7 < c.toNat

/-- A transaction that meets an error's condition sets the flag of that error and does nothing else
(R118). -/
theorem exec_of_rejects {s : State} {i : Instr} {e : ErrorCode} (h : Rejects s i e) :
    exec i s = .next (s.setError e) := by
  cases e with
  | illegalCommand => obtain ⟨w, rfl⟩ := h; exact exec_cmdIllegal w s
  | busy => obtain ⟨hb, hi⟩ := h; exact exec_of_busy hi hb
  | badState =>
    obtain ⟨hb, hc, c, rfl⟩ := h
    exact (execSample_eq_next c s _).mpr (.inr (.inl ⟨hb, hc, rfl⟩))
  | invalidChannel =>
    obtain ⟨hb, hc, c, rfl, hn⟩ := h
    exact (execSample_eq_next c s _).mpr (.inr (.inr (.inl ⟨hb, hc, hn, rfl⟩)))

theorem eq_setError_of_rejects {s t : State} {i : Instr} {e : ErrorCode} (h : exec i s = .next t)
    (hrej : Rejects s i e) : t = s.setError e := by
  simpa [exec_of_rejects hrej, eq_comm] using h

/-- A transaction is a rejection, or it sets no error flag (R108). -/
theorem ExecEffect.rejects_or_raises_nothing {s t : State} {i : Instr} (h : ExecEffect s i t) :
    (∃ e, Rejects s i e ∧ t = s.setError e)
    ∨ ∀ e, t.errorFlag e = true → s.errorFlag e = true := by
  cases h with
  | illegal w => exact .inl ⟨.illegalCommand, ⟨w, rfl⟩, rfl⟩
  | busy _ hb hi => exact .inl ⟨.busy, ⟨hb, hi⟩, rfl⟩
  | badState c hb hc => exact .inl ⟨.badState, ⟨hb, hc, c, rfl⟩, rfl⟩
  | invalidChannel c hb hc hn => exact .inl ⟨.invalidChannel, ⟨hb, hc, c, rfl, hn⟩, rfl⟩
  | rdFmtData => exact .inr fun e he => by simpa using he
  | clrerr => exact .inr fun e he => by cases e <;> cases he
  | _ => exact .inr fun _ he => he

/-- A transaction turns the flag of an error 1 exactly when it meets that error's condition. -/
theorem errorFlag_raised_iff {s t : State} {i : Instr} {e : ErrorCode} (h : exec i s = .next t)
    (hs : s.errorFlag e = false) : t.errorFlag e = true ↔ Rejects s i e := by
  constructor
  · intro ht
    obtain ⟨e', hrej, rfl⟩ | hnone := (exec_effect h).rejects_or_raises_nothing
    · obtain rfl : e = e' := by simpa [hs, eq_comm] using ht
      exact hrej
    · simp [hnone e ht] at hs
  · intro hrej
    simp [eq_setError_of_rejects h hrej]

/-- Settles O43: ERR_BUSY turns 1 exactly under the condition of Busy, and such a rejection does nothing
else. -/
theorem busyIsRaisedByExactlySix : Obligations.BusyIsRaisedByExactlySix := by
  intro s t i hs h
  have hiff : t.eBusy = true ↔ Rejects s i .busy := errorFlag_raised_iff (e := .busy) h hs
  exact ⟨hiff, fun ht => eq_setError_of_rejects h (hiff.mp ht)⟩

/-- Settles O44: the condition of an error does not look at the error flags, so the same rejection
happens with any flags set. -/
theorem rejectionsArePrecise : Obligations.RejectionsArePrecise := by
  intro i s t e h ht
  have hclear : Rejects s.clearErrors i e := (errorFlag_raised_iff h (by cases e <;> rfl)).mp ht
  have hrej : Rejects s i e := by cases e <;> exact hclear
  exact ⟨s.setError e, exec_of_rejects hrej, fun f => by simp [eq_comm], by cases e <;> rfl⟩

/-- A transaction that changes an error flag drives no pin (R112, R113, R118). -/
theorem ExecEffect.keeps_pins_of_errorFlag_ne {s t : State} {i : Instr} {e : ErrorCode}
    (h : ExecEffect s i t) (hne : t.errorFlag e ≠ s.errorFlag e) :
    t.cs = s.cs ∧ t.trace = s.trace := by
  cases h with
  | csAssert => exact absurd rfl hne
  | csDeassert => exact absurd rfl hne
  | _ => simp

/-- Settles O24: the two flags turn 1 exactly under their errors' conditions, and no transaction that
changes one of them drives a pin. -/
theorem sampleErrorsAreRaisedExactlySo : Obligations.SampleErrorsAreRaisedExactlySo := by
  refine fun i s t h => ⟨errorFlag_raised_iff (e := .badState) h,
    errorFlag_raised_iff (e := .invalidChannel) h, ?_⟩
  rintro (hstate | hinvch)
  · exact (exec_effect h).keeps_pins_of_errorFlag_ne (e := .badState) hstate
  · exact (exec_effect h).keeps_pins_of_errorFlag_ne (e := .invalidChannel) hinvch

/-! ### Stickiness -/

/-- The engine's steps touch no error flag (R70, R75 to R80, R93). -/
@[simp] theorem engineTurn_errorFlag (miso : Byte) (s : State) (e : ErrorCode) :
    (engineTurn miso s).errorFlag e = s.errorFlag e := by
  obtain ⟨_, _, h⟩ | ⟨_, _, h⟩ | ⟨_, _, h⟩ | ⟨_, _, h⟩ | ⟨_, _, h⟩ | ⟨_, _, h⟩ | ⟨_, _, h⟩
    | ⟨_, _, _, _, _, _, _, h⟩ | ⟨_, _, _, h⟩ := engineTurn_cases miso s <;> rw [h] <;> rfl

/-- Settles O45: a turn of the engine keeps the error flags, and so does every transaction but
CLRERR. -/
theorem errorFlagsAreSticky : Obligations.ErrorFlagsAreSticky := by
  intro s t e h hs ht
  obtain ⟨r, rest, u, i, hin, ha, hd, he⟩ | ⟨miso, inputs, draws, rfl⟩ := step_cases h
  · have hi : i = .clrerr := by
      by_contra hi
      simp [(exec_effect he).keeps_errorFlag hi hs] at ht
    exact ⟨r, u, by rw [hin, List.head?_cons], ha, hi ▸ hd⟩
  · rw [engineTurn_errorFlag] at ht
    exact absurd (hs.symm.trans ht) (by decide)

end Sys2Proof.Machine
end

section
/-! Reset (70_reset_and_hazards.md): the fields and the registers of the reset state (R124). -/

namespace Sys2Proof.Machine

@[simp] theorem State.ctrlWord_reset : State.reset.ctrlWord = 0x00000000 := by decide

@[simp] theorem State.statusWord_reset : State.reset.statusWord = 0x00000000 := by decide

@[simp] theorem State.rxWord_reset : State.reset.rxWord = 0x00000000 := by decide

@[simp] theorem State.fmtDataWord_reset : State.reset.fmtDataWord = 0x00000000 := by decide

/-- FMT_DATA holds no byte at reset, so its read pops none (R94). -/
@[simp] theorem State.popFmtData_reset : State.reset.popFmtData = State.reset :=
  State.reset.popFmtData_of_not_fvalid rfl

/-- A transaction that at reset is the plain read of a word that is 0 there: the host has read that 0,
and nothing else has changed. -/
theorem exec_reset_of_answer {i : Instr} {v : Word} (h : exec i State.reset = answer v State.reset)
    (hv : v = 0x00000000) :
    exec i State.reset = .next { State.reset with reads := [0x00000000] } := by
  rw [h, hv]
  rfl

/-- Settles O1: the fields by evaluation; each read is at reset the plain read of a word that is 0, as
TC, which RD_STATUS clears, is 0 and FMT_DATA, which RD_FMT_DATA pops, is empty. -/
theorem resetFieldsAndRegisters : Obligations.ResetFieldsAndRegisters := by
  refine ⟨by decide, fun i hi => ?_⟩
  simp only [List.mem_cons, List.not_mem_nil, or_false] at hi
  obtain rfl | rfl | rfl | rfl | rfl | rfl := hi
  · exact exec_reset_of_answer rfl State.ctrlWord_reset
  · exact exec_reset_of_answer rfl State.statusWord_reset
  · exact exec_reset_of_answer rfl State.rxWord_reset
  · exact exec_reset_of_answer (v := State.reset.value) rfl rfl
  · exact exec_reset_of_answer (v := State.reset.fmtIn) rfl rfl
  · refine exec_reset_of_answer ?_ State.fmtDataWord_reset
    rw [exec_rdFmtData, State.popFmtData_reset]
    rfl

end Sys2Proof.Machine
end

section
/-! The decoder against the encoder and the opcode map (30_encoding.md sections 1 to 4): each direction
of the round trip, the well-formed command words, and the row that selects a word. -/

namespace Sys2Proof

/-! ### The command words -/

/-- No bit of ARG under a mask that holds the bits from `k` up is set exactly when the ARG bits from `k`
up are 0. -/
theorem and_highMask_eq_zero_iff (arg mask : BitVec 24) {k n : Nat} (hkn : k + n = 24)
    (hmask : ∀ j < 24, mask.getLsbD j = decide (k ≤ j)) :
    arg &&& mask = 0 ↔ arg.extractLsb' k n = 0 := by
  constructor
  · intro h
    apply BitVec.eq_of_getLsbD_eq
    intro j hj
    have hbit : (arg &&& mask).getLsbD (k + j) = false := by rw [h]; exact BitVec.getLsbD_zero
    rw [BitVec.getLsbD_and, hmask _ (by omega), decide_eq_true (Nat.le_add_right k j),
      Bool.and_true] at hbit
    simp [-BitVec.getLsbD_eq_getElem, hbit]
  · intro h
    apply BitVec.eq_of_getLsbD_eq
    intro j hj
    have hzero : (0 : BitVec 24).getLsbD j = false := BitVec.getLsbD_zero
    rw [BitVec.getLsbD_and, hmask j hj, hzero]
    rcases Nat.lt_or_ge j k with hjk | hjk
    · simp [Nat.not_le.mpr hjk]
    · have hbit : (arg.extractLsb' k n).getLsbD (j - k) = false := by
        rw [h]; exact BitVec.getLsbD_zero
      rw [BitVec.getLsbD_extractLsb', decide_eq_true (by omega), Bool.true_and,
        Nat.add_sub_cancel' hjk] at hbit
      rw [hbit, Bool.false_and]

/-- The reserved ARG bits of SAMPLE are those above CHANNEL (R54). -/
theorem and_reservedArg_sample (arg : BitVec 24) :
    arg &&& reservedArg 0x03 = 0 ↔ arg.extractLsb' 8 16 = 0 :=
  and_highMask_eq_zero_iff arg _ rfl (by decide)

/-- The reserved ARG bits of FORMAT are those above SRC (R54). -/
theorem and_reservedArg_format (arg : BitVec 24) :
    arg &&& reservedArg 0x04 = 0 ↔ arg.extractLsb' 1 23 = 0 :=
  and_highMask_eq_zero_iff arg _ rfl (by decide)

/-- All ARG bits of the other commands are reserved (R54). -/
theorem and_reservedArg_of_no_operand {op : Byte} (hsample : op ≠ 0x03) (hformat : op ≠ 0x04)
    (arg : BitVec 24) : arg &&& reservedArg op = arg := by
  rw [reservedArg, if_neg hsample, if_neg hformat]
  exact BitVec.and_allOnes

/-- A command word is legal when its OP is one of the six and its reserved ARG bits are 0 (R57). -/
theorem illegalCommand_eq_false_iff (w : Word) :
    illegalCommand w = false ↔ (w.extractLsb' 24 8).toNat ≤ 5
      ∧ w.extractLsb' 0 24 &&& reservedArg (w.extractLsb' 24 8) = 0 := by
  simp only [illegalCommand, Bool.or_eq_false_iff, decide_eq_false_iff_not, not_lt, bne_eq_false_iff_eq]

/-- The decoder takes a command word for one of the six commands exactly when it is legal (R54, R57). -/
theorem illegalCommand_eq_false_iff_command (w : Word) :
    illegalCommand w = false ↔
      (w.extractLsb' 24 8 = 0x00 ∧ w.extractLsb' 0 24 = 0)
      ∨ (w.extractLsb' 24 8 = 0x01 ∧ w.extractLsb' 0 24 = 0)
      ∨ (w.extractLsb' 24 8 = 0x02 ∧ w.extractLsb' 0 24 = 0)
      ∨ (w.extractLsb' 24 8 = 0x03 ∧ (w.extractLsb' 0 24).extractLsb' 8 16 = 0)
      ∨ (w.extractLsb' 24 8 = 0x04 ∧ (w.extractLsb' 0 24).extractLsb' 1 23 = 0)
      ∨ (w.extractLsb' 24 8 = 0x05 ∧ w.extractLsb' 0 24 = 0) := by
  have hop : ∀ op : Byte, op.toNat ≤ 5
      ↔ op = 0x00 ∨ op = 0x01 ∨ op = 0x02 ∨ op = 0x03 ∨ op = 0x04 ∨ op = 0x05 := by decide
  rw [illegalCommand_eq_false_iff, hop]
  generalize w.extractLsb' 24 8 = op
  simp only [or_and_right]
  refine or_congr ?_ (or_congr ?_ (or_congr ?_ (or_congr ?_ (or_congr ?_ ?_))))
    <;> refine and_congr_right fun h => ?_ <;> subst h
  case refine_4 => exact and_reservedArg_sample _
  case refine_5 => exact and_reservedArg_format _
  all_goals rw [and_reservedArg_of_no_operand (by decide) (by decide)]

theorem decodeCommand_eq_cmdIllegal_iff_illegalCommand (w : Word) :
    decodeCommand w = .cmdIllegal w ↔ illegalCommand w = true := by
  rw [← Bool.not_eq_false, illegalCommand_eq_false_iff_command, decodeCommand]
  split_ifs with hnop hassert hdeassert hsample hformat hclrerr
  case neg => simp only [*, or_self, not_false_eq_true]
  all_goals simp only [*, true_or, or_true, not_true_eq_false, and_self]

/-- ARG is its low bits if the bits from `k` up are 0. -/
theorem zero_append_low_arg (arg : BitVec 24) {k n : Nat} (hkn : n + k = 24)
    (hhigh : arg.extractLsb' k n = 0) : (0#n ++ arg.extractLsb' 0 k).cast hkn = arg := by
  rw [← show arg.extractLsb' k n = 0#n from hhigh]
  apply BitVec.eq_of_getLsbD_eq
  intro j hj
  rw [BitVec.getLsbD_cast, BitVec.getLsbD_append, BitVec.getLsbD_extractLsb',
    BitVec.getLsbD_extractLsb']
  rcases Nat.lt_or_ge j k with hjk | hjk
  · simp [hjk]
  · simp [Nat.not_lt.mpr hjk, Nat.add_sub_cancel' hjk, show j - k < n by omega]

theorem extractLsb'_zero_one_arg (arg : BitVec 24) :
    arg.extractLsb' 0 1 = BitVec.ofBool (arg.getLsbD 0) := by
  apply BitVec.eq_of_getLsbD_eq
  intro j hj
  obtain rfl : j = 0 := by omega
  simp

/-- The command decoder's answer is well-formed, and encodes to the word it was read from. -/
theorem encode_decodeCommand (w : Word) :
    WellFormed (decodeCommand w) = true ∧ encode (decodeCommand w) = mkT true 0x10 w := by
  cases hill : illegalCommand w with
  | true =>
    rw [(decodeCommand_eq_cmdIllegal_iff_illegalCommand w).mpr hill]
    exact ⟨hill, rfl⟩
  | false =>
    have hw := commandWord_fields w
    obtain ⟨hop, harg⟩ | ⟨hop, harg⟩ | ⟨hop, harg⟩ | ⟨hop, harg⟩ | ⟨hop, harg⟩ | ⟨hop, harg⟩ :=
      (illegalCommand_eq_false_iff_command w).mp hill
    all_goals
      rw [hop] at hw
      simp only [decodeCommand, hop, harg]
      refine ⟨rfl, congrArg (mkT true 0x10) (Eq.trans (congrArg (commandWord _) ?_) hw)⟩
    case inr.inr.inr.inl => exact zero_append_low_arg _ rfl harg
    case inr.inr.inr.inr.inl =>
      refine Eq.trans ?_ (zero_append_low_arg (k := 1) _ rfl harg)
      rw [extractLsb'_zero_one_arg]
      cases (w.extractLsb' 0 24).getLsbD 0 <;> rfl
    all_goals exact harg.symm

/-! ### The registers and the unmapped offsets -/

/-- An aligned offset below 0x20 is that of a register (R19). -/
theorem register_offset : ∀ off : Byte, off.extractLsb' 0 2 = 0 → off.toNat < 0x20 →
    off = 0x00 ∨ off = 0x04 ∨ off = 0x08 ∨ off = 0x0C ∨ off = 0x10 ∨ off = 0x14 ∨ off = 0x18
      ∨ off = 0x1C := by decide

theorem encode_decodeRead {off : Byte} (hlow : off.extractLsb' 0 2 = 0) (hoff : off.toNat < 0x20) :
    WellFormed (decodeRead off) = true ∧ encode (decodeRead off) = mkT false off 0 := by
  obtain rfl | rfl | rfl | rfl | rfl | rfl | rfl | rfl := register_offset off hlow hoff
  all_goals exact ⟨rfl, rfl⟩

theorem encode_decodeWrite {off : Byte} (w : Word) (hlow : off.extractLsb' 0 2 = 0)
    (hoff : off.toNat < 0x20) :
    WellFormed (decodeWrite off w) = true ∧ encode (decodeWrite off w) = mkT true off w := by
  obtain rfl | rfl | rfl | rfl | rfl | rfl | rfl | rfl := register_offset off hlow hoff
  case inr.inr.inr.inr.inl => exact encode_decodeCommand w
  all_goals exact ⟨rfl, rfl⟩

/-- An unmapped offset is put together again from the bits that its row leaves free. -/
theorem offUnmapped_extract : ∀ off : Byte, off.extractLsb' 0 2 = 0 → 0x20 ≤ off.toNat →
    (off.getLsbD 7 = true → offUnmapped80 (off.extractLsb' 2 5) = off)
    ∧ (off.getLsbD 7 = false → off.getLsbD 6 = true → offUnmapped40 (off.extractLsb' 2 4) = off)
    ∧ (off.getLsbD 7 = false → off.getLsbD 6 = false → offUnmapped20 (off.extractLsb' 2 3) = off) := by
  decide

theorem encode_decodeUnmapped (we : Bool) {off : Byte} (w : Word) (hlow : off.extractLsb' 0 2 = 0)
    (hoff : 0x20 ≤ off.toNat) :
    WellFormed (decodeUnmapped we off w) = true
      ∧ encode (decodeUnmapped we off w) = mkT we off (if we then w else 0) := by
  obtain ⟨h80, h40, h20⟩ := offUnmapped_extract off hlow hoff
  unfold decodeUnmapped
  cases h7 : off.getLsbD 7 with
  | true => cases we <;> exact ⟨rfl, congrArg (mkT _ · _) (h80 h7)⟩
  | false =>
    cases h6 : off.getLsbD 6 with
    | true => cases we <;> exact ⟨rfl, congrArg (mkT _ · _) (h40 h7 h6)⟩
    | false => cases we <;> exact ⟨rfl, congrArg (mkT _ · _) (h20 h7 h6)⟩

/-! ### The round trip -/

/-- The decoder's answer is well-formed, and encodes to the word, but that the WDATA of a read is 0. -/
theorem encode_of_decode {t : TWord} {i : Instr} (h : decode t = .ok i) :
    WellFormed i = true ∧ encode i = mkT (tWe t) (tOff t) (if tWe t then tWdata t else 0) := by
  unfold decode at h
  split_ifs at h with hlow hoff hwe
  all_goals rw [ne_eq, not_not] at hlow
  all_goals obtain rfl := Except.ok.inj h
  · exact encode_decodeUnmapped _ _ hlow hoff
  · rw [hwe]
    exact encode_decodeWrite _ hlow (by omega)
  · rw [Bool.eq_false_iff.mpr hwe]
    exact encode_decodeRead hlow (by omega)

/-- The bits of WE and OFF (R50). -/
theorem getLsbD_topMask : ∀ j < 41, (0x1FF00000000 : TWord).getLsbD j = decide (32 ≤ j) := by decide

/-- A read's word without its WDATA (R50). -/
theorem mkT_zero_eq_and_topMask (t : TWord) : mkT (tWe t) (tOff t) 0 = t &&& 0x1FF00000000 := by
  apply BitVec.eq_of_getLsbD_eq
  intro j hj
  have hbit := getLsbD_mkT (tWe t) (tOff t) (tWdata t) j
  rw [mkT_fields] at hbit
  rw [BitVec.getLsbD_and, getLsbD_topMask j hj, getLsbD_mkT, hbit]
  rcases Nat.lt_or_ge j 32 with hj32 | hj32
  · simp [hj32, Nat.not_le.mpr hj32]
  · simp [hj32, Nat.not_lt.mpr hj32]

/-- Settles O5: the decoder's answer encodes to the word's fields, without the WDATA of a read. -/
theorem encodeOfDecode : Obligations.EncodeOfDecode := by
  intro t i h
  obtain ⟨hwf, henc⟩ := encode_of_decode h
  refine ⟨hwf, henc.trans ?_⟩
  split
  · exact mkT_fields t
  · exact mkT_zero_eq_and_topMask t

/-- A word at a register's offset decodes by its WE and that offset. -/
theorem decode_register (we : Bool) {off : Byte} (w : Word) (hlow : off.extractLsb' 0 2 = 0)
    (hoff : off.toNat < 0x20) :
    decode (mkT we off w) = .ok (if we then decodeWrite off w else decodeRead off) := by
  rw [decode_mkT, if_neg (not_not_intro hlow), if_neg (by omega)]
  cases we <;> rfl

theorem decode_unmapped (we : Bool) {off : Byte} (w : Word) (hlow : off.extractLsb' 0 2 = 0)
    (hoff : 0x20 ≤ off.toNat) : decode (mkT we off w) = .ok (decodeUnmapped we off w) := by
  rw [decode_mkT, if_neg (not_not_intro hlow), if_pos hoff]

theorem decode_offUnmapped20 (we : Bool) (k : BitVec 3) (w : Word) :
    decode (mkT we (offUnmapped20 k) w) = .ok (if we then .wrUnmapped20 k w else .rdUnmapped20 k) := by
  obtain ⟨hlow, hoff, h7, h6, hk⟩ := offUnmapped20_spec k
  simp [decode_unmapped _ _ hlow hoff, decodeUnmapped, h7, h6, hk]

theorem decode_offUnmapped40 (we : Bool) (k : BitVec 4) (w : Word) :
    decode (mkT we (offUnmapped40 k) w) = .ok (if we then .wrUnmapped40 k w else .rdUnmapped40 k) := by
  obtain ⟨hlow, hoff, h7, h6, hk⟩ := offUnmapped40_spec k
  simp [decode_unmapped _ _ hlow hoff, decodeUnmapped, h7, h6, hk]

theorem decode_offUnmapped80 (we : Bool) (k : BitVec 5) (w : Word) :
    decode (mkT we (offUnmapped80 k) w) = .ok (if we then .wrUnmapped80 k w else .rdUnmapped80 k) := by
  obtain ⟨hlow, hoff, h7, hk⟩ := offUnmapped80_spec k
  simp [decode_unmapped _ _ hlow hoff, decodeUnmapped, h7, hk]

/-- CHANNEL is read back from the ARG of a SAMPLE (R54). -/
theorem extract_sample_arg : ∀ c : Byte,
    (0#16 ++ c).extractLsb' 8 16 = 0 ∧ (0#16 ++ c).extractLsb' 0 8 = c := by decide

theorem decode_encode_sample (c : Byte) : decode (encode (.sample c)) = .ok (.sample c) := by
  obtain ⟨hhigh, hlow⟩ := extract_sample_arg c
  refine (Machine.decode_write_cmd _).trans ?_
  simp [decodeCommand, hhigh, hlow]

/-- Settles O4, by the row's kind: the decoder finds the register, the unmapped row or the command by
the fields that the encoder wrote. -/
theorem decodeOfEncode : Obligations.DecodeOfEncode := by
  intro i hi
  cases i with
  | rdUnmapped20 k => exact decode_offUnmapped20 false k 0
  | rdUnmapped40 k => exact decode_offUnmapped40 false k 0
  | rdUnmapped80 k => exact decode_offUnmapped80 false k 0
  | wrUnmapped20 k w => exact decode_offUnmapped20 true k w
  | wrUnmapped40 k w => exact decode_offUnmapped40 true k w
  | wrUnmapped80 k w => exact decode_offUnmapped80 true k w
  | sample c => exact decode_encode_sample c
  | cmdIllegal w =>
    rw [encode, Machine.decode_write_cmd, (decodeCommand_eq_cmdIllegal_iff_illegalCommand w).mpr hi]
  | format src => cases src <;> exact decode_register true _ rfl (by decide)
  | _ => exact decode_register _ _ rfl (by decide)

/-! ### The rows of the opcode map -/

/-- Every instruction has a row that selects its word (R50). -/
theorem wordHasARow (i : Instr) : Laws.WordHasARow.Statement i := by
  cases i with
  | rdCtrl => exact Laws.WordHasARow.rdCtrl
  | rdStatus => exact Laws.WordHasARow.rdStatus
  | rdTxdata => exact Laws.WordHasARow.rdTxdata
  | rdRxdata => exact Laws.WordHasARow.rdRxdata
  | rdCmd => exact Laws.WordHasARow.rdCmd
  | rdValue => exact Laws.WordHasARow.rdValue
  | rdFmtIn => exact Laws.WordHasARow.rdFmtIn
  | rdFmtData => exact Laws.WordHasARow.rdFmtData
  | rdUnmapped20 k => exact Laws.WordHasARow.rdUnmapped20 k
  | rdUnmapped40 k => exact Laws.WordHasARow.rdUnmapped40 k
  | rdUnmapped80 k => exact Laws.WordHasARow.rdUnmapped80 k
  | wrCtrl w => exact Laws.WordHasARow.wrCtrl w
  | wrStatus w => exact Laws.WordHasARow.wrStatus w
  | tx w => exact Laws.WordHasARow.tx w
  | wrRxdata w => exact Laws.WordHasARow.wrRxdata w
  | wrValue w => exact Laws.WordHasARow.wrValue w
  | wrFmtIn w => exact Laws.WordHasARow.wrFmtIn w
  | wrFmtData w => exact Laws.WordHasARow.wrFmtData w
  | wrUnmapped20 k w => exact Laws.WordHasARow.wrUnmapped20 k w
  | wrUnmapped40 k w => exact Laws.WordHasARow.wrUnmapped40 k w
  | wrUnmapped80 k w => exact Laws.WordHasARow.wrUnmapped80 k w
  | nop => exact Laws.WordHasARow.nop
  | csAssert => exact Laws.WordHasARow.csAssert
  | csDeassert => exact Laws.WordHasARow.csDeassert
  | sample c => exact Laws.WordHasARow.sample c
  | format src => exact Laws.WordHasARow.format src
  | clrerr => exact Laws.WordHasARow.clrerr
  | cmdIllegal w => exact Laws.WordHasARow.cmdIllegal w

/-- A row of the reads tests no bit of WDATA. -/
theorem mask_of_read_row : ∀ r ∈ opcodeTable, r.pattern.getLsbD 40 = false →
    r.mask &&& 0x1FF00000000 = r.mask := by decide

/-- Two rows but CMD_ILLEGAL whose patterns agree where both test the word are the same row. -/
theorem disjointRows_disjoint : ∀ r ∈ disjointRows, ∀ r' ∈ disjointRows,
    r.pattern &&& r'.mask = r'.pattern &&& r.mask → r' = r := by decide

/-- The rows that share a word with CMD_ILLEGAL are the commands'. -/
theorem commandRow_of_shares_illegalRow : ∀ r ∈ disjointRows,
    illegalRow.pattern &&& r.mask = r.pattern &&& illegalRow.mask → r ∈ commandRows := by decide

theorem OpcodeRow.covers_iff (r : OpcodeRow) (t : TWord) :
    r.covers t = true ↔ t &&& r.mask = r.pattern := by
  rw [OpcodeRow.covers, beq_iff_eq]

/-- The patterns of two rows that select one word agree where both test it. -/
theorem pattern_and_mask_of_covers {r r' : OpcodeRow} {t : TWord} (h : r.covers t = true)
    (h' : r'.covers t = true) : r.pattern &&& r'.mask = r'.pattern &&& r.mask := by
  rw [OpcodeRow.covers_iff] at h h'
  rw [← h, ← h', BitVec.and_assoc, BitVec.and_assoc, BitVec.and_comm r.mask]

/-- A command's row tests all of OP and the reserved ARG bits of that OP, which it wants to be 0
(R54). -/
theorem commandRow_mask : ∀ r ∈ commandRows,
    r.mask.extractLsb' 24 8 = BitVec.allOnes 8 ∧ (r.pattern.extractLsb' 24 8).toNat ≤ 5
    ∧ r.mask.extractLsb' 0 24 = reservedArg (r.pattern.extractLsb' 24 8)
    ∧ r.pattern.extractLsb' 0 24 = 0 := by decide

/-- The rows of the commands select legal command words only (R57). -/
theorem legal_of_commandRow_covers {r : OpcodeRow} {t : TWord} (hr : r ∈ commandRows)
    (h : r.covers t = true) : illegalCommand (tWdata t) = false := by
  obtain ⟨hmask, hop, hreserved, harg⟩ := commandRow_mask r hr
  rw [OpcodeRow.covers_iff] at h
  have hopt : t.extractLsb' 24 8 = r.pattern.extractLsb' 24 8 := by
    rw [← h, BitVec.extractLsb'_and, hmask, BitVec.and_allOnes]
  have hargt : t.extractLsb' 0 24 &&& reservedArg (r.pattern.extractLsb' 24 8) = 0 := by
    rw [← hreserved, ← BitVec.extractLsb'_and, h, harg]
  rw [illegalCommand_eq_false_iff, tWdata, BitVec.extractLsb'_extractLsb'_of_le (by decide),
    BitVec.extractLsb'_extractLsb'_of_le (by decide), hopt]
  exact ⟨hop, hargt⟩

/-- A row that selects a read's word without its WDATA selects the word. -/
theorem covers_of_covers_and_topMask {r : OpcodeRow} {t : TWord} (hr : r ∈ opcodeTable)
    (hwe : tWe t = false) (h : r.covers (t &&& 0x1FF00000000) = true) : r.covers t = true := by
  rw [OpcodeRow.covers_iff] at h ⊢
  have hpattern : r.pattern.getLsbD 40 = false := by
    rw [← h, BitVec.getLsbD_and, BitVec.getLsbD_and, ← tWe, hwe, Bool.false_and, Bool.false_and]
  rw [← h, BitVec.and_assoc, BitVec.and_comm 0x1FF00000000, mask_of_read_row r hr hpattern]

theorem eq_cmdIllegal_of_mnemonic {i : Instr} (h : i.mnemonic = illegalRow.mnemonic) :
    ∃ w, i = .cmdIllegal w := by
  cases i with
  | cmdIllegal w => exact ⟨w, rfl⟩
  | _ => simp [Instr.mnemonic, illegalRow] at h

/-- No other row selects a word that decodes to CMD_ILLEGAL: only the commands' rows could, and they
select legal words. -/
theorem not_covers_of_decode_cmdIllegal {t : TWord} {w : Word} (h : decode t = .ok (.cmdIllegal w))
    (hcov : illegalRow.covers t = true) : ∀ r ∈ disjointRows, r.covers t = false := by
  obtain ⟨hwf, henc⟩ := encode_of_decode h
  have hwe : tWe t = true := by simpa [encode] using (congrArg tWe henc).symm
  have hw : w = tWdata t := by simpa [encode, hwe] using congrArg tWdata henc
  intro r hr
  by_contra hrt
  rw [Bool.not_eq_false] at hrt
  have hcmd := commandRow_of_shares_illegalRow r hr (pattern_and_mask_of_covers hcov hrt)
  have hlegal := legal_of_commandRow_covers hcmd hrt
  rw [← hw] at hlegal
  exact absurd (hwf.symm.trans hlegal) (by decide)

/-- Settles O6: the row of the instruction selects the word that encodes it, and so the word it was
decoded from; another row would share a word with it. -/
theorem decoderFollowsTheOpcodeMap : Obligations.DecoderFollowsTheOpcodeMap := by
  intro t i h
  obtain ⟨-, henc⟩ := encodeOfDecode t i h
  obtain ⟨r, hr, hname, hcov⟩ := wordHasARow i
  have hcovt : r.covers t = true := by
    rw [henc] at hcov
    split at hcov
    · exact hcov
    · exact covers_of_covers_and_topMask hr (Bool.eq_false_iff.mpr ‹_›) hcov
  refine ⟨r, hr, hname, hcovt, fun r' hr' hcov' => ?_⟩
  obtain hr | hr := List.mem_append.mp hr
  · exact disjointRows_disjoint r hr r' hr' (pattern_and_mask_of_covers hcovt hcov')
  · obtain rfl := List.mem_singleton.mp hr
    obtain ⟨w, rfl⟩ := eq_cmdIllegal_of_mnemonic hname.symm
    simp [not_covers_of_decode_cmdIllegal h hcovt r' hr'] at hcov'

/-! ### The words that decode -/

theorem extract_low_eq_zero_iff : ∀ off : Byte, off.extractLsb' 0 2 = 0 ↔ off.toNat % 4 = 0 := by decide

/-- Exactly the words at an aligned offset decode (R33, R56). -/
theorem decode_eq_ok_iff (t : TWord) : (∃ i, decode t = .ok i) ↔ (tOff t).toNat % 4 = 0 := by
  constructor
  · rintro ⟨i, h⟩
    by_contra hoff
    simp [Machine.decode_of_unaligned hoff] at h
  · intro hoff
    rw [← extract_low_eq_zero_iff] at hoff
    rw [← mkT_fields t]
    rcases Nat.lt_or_ge (tOff t).toNat 0x20 with hreg | hreg
    · exact ⟨_, decode_register _ _ hoff hreg⟩
    · exact ⟨_, decode_unmapped _ _ hoff hreg⟩

/-- Every row wants the low two bits of OFF to be 0. -/
theorem row_offset_aligned : ∀ r ∈ opcodeTable,
    r.mask.extractLsb' 32 2 = BitVec.allOnes 2 ∧ r.pattern.extractLsb' 32 2 = 0 := by decide

theorem extract_low_tOff (t : TWord) : (tOff t).extractLsb' 0 2 = t.extractLsb' 32 2 := by
  apply BitVec.eq_of_getLsbD_eq
  intro j hj
  simp [-BitVec.getLsbD_eq_getElem, tOff, hj, show j < 8 by omega]

/-- Settles O7: an aligned word's row is that of the instruction it decodes to, and a row selects
aligned words only. -/
theorem alignedWordsHaveARow : Obligations.AlignedWordsHaveARow := by
  refine fun t => ⟨decode_eq_ok_iff t, fun hoff => ?_, fun ⟨r, hr, hcov⟩ => ?_⟩
  · obtain ⟨i, h⟩ := (decode_eq_ok_iff t).mpr hoff
    obtain ⟨r, hr, -, hcov, -⟩ := decoderFollowsTheOpcodeMap t i h
    exact ⟨r, hr, hcov⟩
  · obtain ⟨hmask, hpattern⟩ := row_offset_aligned r hr
    rw [OpcodeRow.covers_iff] at hcov
    rw [← extract_low_eq_zero_iff, extract_low_tOff, ← hpattern, ← hcov, BitVec.extractLsb'_and, hmask,
      BitVec.and_allOnes]

end Sys2Proof
end

section
/-! The reset pins, the written-out words, and what one step is (00_scope.md, 20_memory.md): the host's
admitted request, a bus access, or the engine's turn. -/

namespace Sys2Proof.Machine

/-- Settles O2, by evaluation of the two constants. -/
theorem resetPinLevels : Obligations.ResetPinLevels := by
  unfold Obligations.ResetPinLevels
  decide

/-- Settles O3, by evaluation of the decoder on the fifteen words. -/
theorem tableWordsDecode : Obligations.TableWordsDecode := by
  unfold Obligations.TableWordsDecode
  decide

/-- Settles O9: the host's turn performs what the decoder answers. -/
theorem stepPerformsTheDecodedInstruction : Obligations.StepPerformsTheDecodedInstruction :=
  fun _ _ _ _ _ hin ha hd => ⟨rfl, (step_of_host hin).trans (hostTurn_of_decode _ ha hd)⟩

/-- Settles O10: the engine's turn, by whether an input is left. -/
theorem stepTakesTheEnginesTurn : Obligations.StepTakesTheEnginesTurn :=
  fun _ _ _ => ⟨step_of_engine, fun hin => ⟨_, step_of_no_input hin⟩⟩

/-- Settles O11: such an address has its offset in the window, and passes the check of width and
alignment. -/
theorem busAccessIsRegisterTransaction : Obligations.BusAccessIsRegisterTransaction := by
  intro a hlo hhi hsize halign
  rw [Request.toWord, admitBus, windowOffset_of_inside hlo hhi]
  exact if_pos ⟨hsize, halign⟩

end Sys2Proof.Machine
end

section
/-! The invariant of the block (10_state.md section 2): it holds at reset, every transaction and every
turn of the engine keeps it, and what it says of the engine's steps (R18, R73, R135). -/

namespace Sys2Proof.Machine

/-! ### The trace and the undelivered bytes -/

/-- The level that a longer trace leaves chip-select at, by its last event (R27). -/
theorem traceChipSelect_concat (trace : List SpiEvent) (e : SpiEvent) :
    traceChipSelect (trace ++ [e]) = chipSelectAfter (traceChipSelect trace) e := by
  rw [traceChipSelect, List.foldl_append]
  rfl

/-- An exchange leaves chip-select at its level (R27). -/
@[simp] theorem chipSelectAfter_xchg (cs : Bool) (mosi miso : Byte) :
    chipSelectAfter (some cs) (.xchg mosi miso) = some cs := by
  cases cs <;> rfl

theorem State.undelivered_of_fvalid {s : State} (h : s.fvalid = true) :
    s.undelivered = s.fdata :: s.fpend := by
  rw [State.undelivered, if_pos h, List.singleton_append]

theorem State.undelivered_of_not_fvalid {s : State} (h : s.fvalid = false) :
    s.undelivered = s.fpend := by
  rw [State.undelivered, h]
  rfl

theorem render_ne_nil (x : Word) : render x ≠ [] := by
  intro h
  have hlen := (renderingLength x).1
  simp [h] at hlen

/-! ### What the invariant says of the units -/

section
variable {s : State} (hinv : Inv s)
include hinv

/-- A sample in flight has the sequencer to itself (R18, R73). -/
theorem Inv.xfer_of_sample (hq : s.seq ≠ .idle) : s.xfer = none := by
  by_contra hx
  exact hq (hinv.exchange_alone (Option.isSome_iff_ne_none.mpr hx)).1

/-- An active rendering has the sequencer to itself (R18, R73). -/
theorem Inv.idle_of_rendering (hf : s.fact = true) : s.xfer = none ∧ s.seq = .idle := by
  refine ⟨?_, ?_⟩
  · by_contra hx
    have hfact := (hinv.exchange_alone (Option.isSome_iff_ne_none.mpr hx)).2.1
    exact absurd (hf.symm.trans hfact) (by decide)
  · by_contra hq
    exact absurd (hf.symm.trans (hinv.sample_alone hq).1) (by decide)

/-- Without an active rendering nothing is held and nothing is pending (R30, R94). -/
theorem Inv.nothing_undelivered (hf : s.fact = false) : s.fvalid = false ∧ s.fpend = [] := by
  have hu : s.undelivered = [] := by
    by_contra hu
    exact absurd (hf.symm.trans (hinv.active_iff_undelivered.mpr hu)) (by decide)
  simpa [State.undelivered] using hu

/-- An active rendering that holds no byte has one pending (R93). -/
theorem Inv.pending_of_not_held (hf : s.fact = true) (hv : s.fvalid = false) : s.fpend ≠ [] := by
  rw [← State.undelivered_of_not_fvalid hv]
  exact hinv.active_iff_undelivered.mp hf

end

/-! ### Every transaction keeps the invariant -/

/-- The invariant does not speak of the fields that the configuration, the errors, the values read and
the environment's side consist of. -/
theorem Inv.of_unseen {s t : State} (hinv : Inv s)
    (h : t = { s with
      cpol := t.cpol, cpha := t.cpha, clkdiv := t.clkdiv, rx := t.rx, ch := t.ch, hi := t.hi,
      lo := t.lo, fmtIn := t.fmtIn, eIllop := t.eIllop, eBusy := t.eBusy, eState := t.eState, eInvch := t.eInvch,
      reads := t.reads, inputs := t.inputs, draws := t.draws }) : Inv t := by
  rw [h]
  exact { hinv with }

theorem Inv.setError {s : State} (hinv : Inv s) (e : ErrorCode) : Inv (s.setError e) :=
  hinv.of_unseen (by cases e <;> rfl)

theorem Inv.returned {s : State} (hinv : Inv s) (v : Word) : Inv (s.returned v) :=
  hinv.of_unseen rfl

/-- Outside a sample a pin event that the trace allows keeps the invariant. -/
theorem Inv.drive {s : State} (hinv : Inv s) (hq : s.seq = .idle) {e : SpiEvent} {level : Bool}
    (he : chipSelectAfter (some s.cs) e = some level) : Inv { s.drive e with cs := level } :=
  { hinv with
    sample_unselected := by simp [hq]
    sample_selected := by simp [hq]
    trace_bracketed := by simp [traceChipSelect_concat, hinv.trace_bracketed, he] }

/-- Popping the held byte leaves the rest of the rendering, and popping the LAST one ends it (R94). -/
theorem Inv.popFmtData {s : State} (hinv : Inv s) : Inv s.popFmtData := by
  cases hv : s.fvalid with
  | false => rwa [s.popFmtData_of_not_fvalid hv]
  | true =>
    have hu := State.undelivered_of_fvalid hv
    have hf : s.fact = true := hinv.active_iff_undelivered.mpr (by simp [hu])
    have hlast := hinv.held_last hv
    obtain ⟨x, hx⟩ := hinv.undelivered_of_rendering hf
    obtain ⟨hxfer, hseq⟩ := hinv.idle_of_rendering hf
    rw [s.popFmtData_of_fvalid hv]
    exact { hinv with
      exchange_alone := fun h => by simp [hxfer] at h
      sample_alone := fun h => absurd hseq h
      active_iff_undelivered := by simp [State.undelivered, hf, ← hlast]
      nothing_held := fun _ => ⟨rfl, rfl⟩
      held_last := fun h => by simp at h
      undelivered_of_rendering := fun _ => ⟨x, (List.suffix_cons _ _).trans (hu ▸ hx)⟩ }

/-- Every transaction keeps the invariant. -/
theorem ExecEffect.keeps_inv {s t : State} {i : Instr} (h : ExecEffect s i t) (hinv : Inv s) :
    Inv t := by
  cases h with
  | read _ v => exact hinv.returned v
  | rdStatus =>
    have htc : Inv { s with tc := false } := { hinv with
      exchange_alone := fun hx => by
        obtain ⟨hq, hf, -⟩ := hinv.exchange_alone hx
        exact ⟨hq, hf, rfl⟩ }
    exact htc.returned _
  | rdFmtData => exact hinv.popFmtData.returned _
  | unchanged => exact hinv
  | clrerr => exact hinv.of_unseen rfl
  | wrFmtIn => exact hinv.of_unseen rfl
  | illegal => exact hinv.setError _
  | busy => exact hinv.setError _
  | badState => exact hinv.setError _
  | invalidChannel => exact hinv.setError _
  | wrCtrl => exact hinv.of_unseen rfl
  | tx w hb =>
    obtain ⟨-, hq, hf⟩ := (State.busy_eq_false_iff s).mp hb
    exact { hinv with exchange_alone := fun _ => ⟨hq, hf, rfl⟩ }
  | csAssert hb hc =>
    exact hinv.drive ((State.busy_eq_false_iff s).mp hb).2.1 (e := .csLow) (by rw [hc]; rfl)
  | csDeassert hb hc =>
    exact hinv.drive ((State.busy_eq_false_iff s).mp hb).2.1 (e := .csHigh) (by rw [hc]; rfl)
  | sample c hb hc hn =>
    obtain ⟨hx, -, hf⟩ := (State.busy_eq_false_iff s).mp hb
    exact { hinv with
      exchange_alone := fun h => by simp [hx] at h
      sample_alone := fun _ => ⟨hf, rfl⟩
      sample_unselected := fun _ => hc
      sample_selected := by simp }
  | format src hb =>
    obtain ⟨hx, hq, hf⟩ := (State.busy_eq_false_iff s).mp hb
    obtain ⟨hv, -⟩ := hinv.nothing_undelivered hf
    exact { hinv with
      exchange_alone := fun h => by simp [hx] at h
      sample_alone := fun h => absurd hq h
      active_iff_undelivered := by simp [State.undelivered, hv, render_ne_nil]
      held_last := fun h => by simp [hv] at h
      undelivered_of_rendering := fun _ => ⟨formatInput src s, by simp [State.undelivered, hv]⟩
      pending_length := (renderingLength _).2.1 }

/-! ### Every turn of the engine keeps the invariant -/

section
variable {s : State} (hinv : Inv s)
include hinv

theorem Inv.xdone {m : Byte} (miso : Byte) (hx : s.xfer = some m) : Inv (xdone m miso s) := by
  obtain ⟨hq, -, -⟩ := hinv.exchange_alone (by simp [hx])
  have hdrive := hinv.drive hq (chipSelectAfter_xchg s.cs m miso)
  exact { hdrive with exchange_alone := fun h => by simp [Machine.xdone] at h }

/-- A phase of a sample that drives the event `e` and leaves for the phase `q`, which finds chip-select
as it should be, keeps the invariant (R75 to R79). -/
theorem Inv.phase {e : SpiEvent} {level : Bool} {q : Phase} (hi : BitVec 4) (lo : Byte)
    (hq : s.seq ≠ .idle) (he : chipSelectAfter (some s.cs) e = some level)
    (hunselected : q = .cslo ∨ q = .scale → level = false)
    (hselected : q = .x1 ∨ q = .x2 ∨ q = .x3 ∨ q = .cshi → level = true) :
    Inv { s.drive e with cs := level, hi := hi, lo := lo, seq := q } :=
  { hinv with
    exchange_alone := fun h => by simp [hinv.xfer_of_sample hq] at h
    sample_alone := fun _ => hinv.sample_alone hq
    sample_unselected := hunselected
    sample_selected := hselected
    trace_bracketed := by simp [traceChipSelect_concat, hinv.trace_bracketed, he] }

theorem Inv.phaseScale (hq : s.seq = .scale) : Inv (phaseScale s) :=
  { hinv with
    exchange_alone := fun h => by simp [Machine.phaseScale, hinv.xfer_of_sample (by simp [hq])] at h
    sample_alone := fun h => absurd rfl h
    sample_unselected := by simp [Machine.phaseScale]
    sample_selected := by simp [Machine.phaseScale]
    value_of_raw := rfl
    value_range := scaleRaw_toNat_le _ }

/-- EMIT moves the first pending byte to the held one: the undelivered bytes are the same (R93). -/
theorem Inv.emitByte {b : Byte} {rest : List Byte} (hv : s.fvalid = false)
    (hp : s.fpend = b :: rest) : Inv (emitByte b rest s) := by
  have hu : (Machine.emitByte b rest s).undelivered = s.undelivered := by
    rw [State.undelivered_of_not_fvalid hv, hp]
    rfl
  exact { hinv with
    active_iff_undelivered := by rw [hu]; exact hinv.active_iff_undelivered
    nothing_held := fun h => by simp [Machine.emitByte] at h
    held_last := fun _ => List.isEmpty_iff
    undelivered_of_rendering := fun h => by rw [hu]; exact hinv.undelivered_of_rendering h
    pending_length := by
      have hlen := hinv.pending_length
      rw [hp, List.length_cons] at hlen
      exact (Nat.le_succ _).trans hlen }

/-- Every turn of the engine keeps the invariant. -/
theorem Inv.engineTurn (miso : Byte) : Inv (engineTurn miso s) := by
  obtain ⟨_, hx, h⟩ | ⟨-, hq, h⟩ | ⟨-, hq, h⟩ | ⟨-, hq, h⟩ | ⟨-, hq, h⟩ | ⟨-, hq, h⟩ | ⟨-, hq, h⟩
    | ⟨-, -, -, hv, _, _, hp, h⟩ | ⟨-, -, -, h⟩ := engineTurn_cases miso s <;> rw [h]
  · exact hinv.xdone miso hx
  · have hcs := hinv.sample_unselected (.inl hq)
    exact hinv.phase s.hi s.lo (e := .csLow) (by simp [hq]) (by rw [hcs]; rfl) (by simp) (by simp)
  · have hcs := hinv.sample_selected (.inl hq)
    exact hinv.phase s.hi s.lo (by simp [hq]) (chipSelectAfter_xchg s.cs _ _) (by simp) (by simp [hcs])
  · have hcs := hinv.sample_selected (.inr (.inl hq))
    exact hinv.phase _ s.lo (by simp [hq]) (chipSelectAfter_xchg s.cs _ _) (by simp) (by simp [hcs])
  · have hcs := hinv.sample_selected (.inr (.inr (.inl hq)))
    exact hinv.phase s.hi _ (by simp [hq]) (chipSelectAfter_xchg s.cs _ _) (by simp) (by simp [hcs])
  · have hcs := hinv.sample_selected (.inr (.inr (.inr hq)))
    exact hinv.phase s.hi s.lo (e := .csHigh) (by simp [hq]) (by rw [hcs]; rfl) (by simp) (by simp)
  · exact hinv.phaseScale hq
  · exact hinv.emitByte hv hp
  · exact hinv

end

/-! ### The obligations -/

/-- Settles O49: at reset no unit is active, and all numbers and lists are empty. -/
theorem invariantAtReset : Obligations.InvariantAtReset := by
  constructor <;> simp [State.reset, State.undelivered, scaleRaw, traceChipSelect]

/-- Settles O50: a step is a transaction or a turn of the engine, and each keeps the invariant. -/
theorem stepKeepsTheInvariant : Obligations.StepKeepsTheInvariant := by
  intro s t hinv h
  obtain ⟨r, rest, u, i, -, -, -, he⟩ | ⟨miso, inputs, draws, rfl⟩ := step_cases h
  · exact (exec_effect he).keeps_inv (hinv.of_unseen rfl)
  · exact (hinv.of_unseen (t := { s with inputs := inputs, draws := draws }) rfl).engineTurn miso

theorem emitStep_eq_none_of_not_fact {s : State} (h : s.fact = false) : emitStep s = none :=
  (emitStep_eq_none s).mpr (by simp [h])

/-- An enabled engine step is that of a unit that holds the sequencer (R18, R73). -/
theorem busy_of_engineStep {s : State} {miso : Byte} (h : engineStep miso s ≠ none) :
    s.busy = true := by
  rw [← Bool.not_eq_false, State.busy_eq_false_iff]
  rintro ⟨hx, hq, hf⟩
  refine h ?_
  rw [engineStep, (xdoneStep_eq_none miso s).mpr hx, (acqStep_eq_none miso s).mpr hq,
    emitStep_eq_none_of_not_fact hf]
  rfl

/-- Settles O52: the unit whose step is enabled holds the sequencer, and the invariant gives it to that
unit alone. -/
theorem atMostOneEngineStepIsEnabled : Obligations.AtMostOneEngineStepIsEnabled := by
  intro s miso hinv
  simp only [Option.isSome_iff_ne_none]
  refine ⟨fun h => ?_, fun h => ?_, busy_of_engineStep⟩
  · rw [Ne, xdoneStep_eq_none] at h
    obtain ⟨hq, hf, -⟩ := hinv.exchange_alone (Option.isSome_iff_ne_none.mpr h)
    exact ⟨(acqStep_eq_none miso s).mpr hq, emitStep_eq_none_of_not_fact hf⟩
  · rw [Ne, acqStep_eq_none] at h
    exact emitStep_eq_none_of_not_fact (hinv.sample_alone h).1

/-- With no enabled engine step a BUSY block holds a byte of its rendering (R135). -/
theorem fvalid_of_busy_of_engineStep_eq_none {s : State} {miso : Byte} (hinv : Inv s)
    (hb : s.busy = true) (h : engineStep miso s = none) : s.fvalid = true := by
  simp only [engineStep, Option.or_eq_none_iff, xdoneStep_eq_none, acqStep_eq_none,
    emitStep_eq_none] at h
  obtain ⟨hx, hq, hemit⟩ := h
  have hf : s.fact = true := by simpa [State.busy_eq_true_iff, hx, hq] using hb
  by_contra hv
  rw [Bool.not_eq_true] at hv
  exact hinv.pending_of_not_held hf hv (hemit hf hv)

/-- Settles O53: an enabled engine step makes the block BUSY, and a BUSY block without one waits for the
host to read the held byte. -/
theorem quiescentMeansNoEngineStep : Obligations.QuiescentMeansNoEngineStep := by
  refine fun s miso hinv => ⟨fun hquiet => ?_, fun hquiet h => ?_⟩
  · by_contra h
    simp [State.quiescent, busy_of_engineStep h] at hquiet
  · cases hb : s.busy with
    | true => exact fvalid_of_busy_of_engineStep_eq_none hinv hb h
    | false => simpa [State.quiescent, hb] using hquiet

end Sys2Proof.Machine
end

section
/-! What a transaction does in every state: it completes (60_exceptions.md R108, R118), it leaves an
operation in flight alone (R111, R73), and a write of a configuration register is idempotent
(20_memory.md section 3). So runs with admitted requests never stop, and a step sets TC or ends a
rendering only as 70_reset_and_hazards.md says (R128, R130). -/

namespace Sys2Proof.Machine

/-! ### Every transaction completes -/

theorem exists_unlessBusy (s t : State) : ∃ u, unlessBusy s t = .next u := by
  cases hb : s.busy with
  | true => exact ⟨_, unlessBusy_of_busy hb t⟩
  | false => exact ⟨_, unlessBusy_of_not_busy hb t⟩

theorem exists_execSample (c : Byte) (s : State) : ∃ t, execSample c s = .next t := by
  unfold execSample raise
  split_ifs
  all_goals exact ⟨_, rfl⟩

/-- Every transaction answers a next state (R108). -/
theorem exists_exec (i : Instr) (s : State) : ∃ t, exec i s = .next t := by
  cases i with
  | wrCtrl | tx | csAssert | csDeassert | format => exact exists_unlessBusy _ _
  | sample c => exact exists_execSample c s
  | _ => exact ⟨_, rfl⟩

/-- A transaction uses nothing of the environment's side, but that a read adds its value. -/
theorem ExecEffect.environment {s t : State} {i : Instr} (h : ExecEffect s i t) :
    t.inputs = s.inputs ∧ t.draws = s.draws ∧ (t.reads = s.reads ∨ ∃ v, t.reads = s.reads ++ [v]) := by
  cases h with
  | read | rdStatus => exact ⟨rfl, rfl, .inr ⟨_, rfl⟩⟩
  | _ => simp

/-- Settles O14: each transaction answers, and its effect has the environment's side as it was. -/
theorem everyTransactionCompletes : Obligations.EveryTransactionCompletes := by
  intro i s
  obtain ⟨t, h⟩ := exists_exec i s
  obtain ⟨hinputs, hdraws, hreads | ⟨v, hreads⟩⟩ := (exec_effect h).environment
  · exact ⟨t, h, hinputs, hdraws, by simp [hreads]⟩
  · exact ⟨t, h, hinputs, hdraws, by simp [hreads]⟩

/-! ### Runs with admitted requests -/

theorem InputsAdmitted.tail {x : Input} {rest : List Input} (h : InputsAdmitted (x :: rest)) :
    InputsAdmitted rest :=
  fun r hr => h r (List.mem_cons_of_mem x hr)

theorem InputsAdmitted.head {x : Input} {rest : List Input} (h : InputsAdmitted (x :: rest)) :
    ∀ r, x = .host r → Admitted r := by
  rintro r rfl
  exact h r List.mem_cons_self

/-- A turn of the host with an admitted request performs its transaction. -/
theorem exists_step_of_host {s : State} {r : Request} {rest : List Input}
    (hin : s.inputs = .host r :: rest) (hr : Admitted r) :
    ∃ i t, r.instr = some i ∧ step s = .next t ∧ exec i { s with inputs := rest } = .next t
      ∧ t.inputs = rest := by
  obtain ⟨u, i, ha, hd⟩ := hr
  obtain ⟨t, he, hinputs, -⟩ := everyTransactionCompletes i { s with inputs := rest }
  exact ⟨i, t, instr_of_decode ha hd, ((step_of_host hin).trans (hostTurn_of_decode _ ha hd)).trans he,
    he, hinputs⟩

/-- A step with a listed turn whose request, if it is the host's, is admitted, uses that turn up. -/
theorem exists_step_of_cons {s : State} {x : Input} {rest : List Input} (hin : s.inputs = x :: rest)
    (hadm : ∀ r, x = .host r → Admitted r) : ∃ t, step s = .next t ∧ t.inputs = rest := by
  cases x with
  | host r =>
    obtain ⟨_, t, -, hstep, -, ht⟩ := exists_step_of_host hin (hadm r rfl)
    exact ⟨t, hstep, ht⟩
  | engine miso => exact ⟨_, step_of_engine hin, engineTurn_inputs _ _⟩

/-- A step with admitted requests only answers a state with admitted requests only. -/
theorem exists_step_of_admitted {s : State} (hadm : InputsAdmitted s.inputs) :
    ∃ t, step s = .next t ∧ InputsAdmitted t.inputs := by
  match hin : s.inputs with
  | [] => exact ⟨_, step_of_no_input hin, by rw [engineTurn_inputs]; exact hadm⟩
  | x :: rest =>
    rw [hin] at hadm
    obtain ⟨t, hstep, ht⟩ := exists_step_of_cons hin hadm.head
    exact ⟨t, hstep, ht ▸ hadm.tail⟩

/-- Settles O15, by induction on the length of the run. -/
theorem admittedRunsNeverStop : Obligations.AdmittedRunsNeverStop := by
  refine ⟨fun s => exists_step_of_admitted, fun s hadm k => ?_⟩
  induction k generalizing s with
  | zero => exact ⟨s, rfl, hadm⟩
  | succ k ih =>
    obtain ⟨t, hstep, ht⟩ := exists_step_of_admitted hadm
    rw [run_succ_of_next k hstep]
    exact ih t ht

/-! ### Idempotent writes -/

theorem setError_setError (e : ErrorCode) (s : State) : (s.setError e).setError e = s.setError e := by
  cases e <;> rfl

/-- WR_CTRL, not BUSY (R64). -/
theorem exec_wrCtrl_of_not_busy {s : State} (w : Word) (h : s.busy = false) :
    exec (.wrCtrl w) s
      = .next { s with cpol := ctrlCpol w, cpha := ctrlCpha w, clkdiv := ctrlClkdiv w } :=
  unlessBusy_of_not_busy h _

/-- Settles O47: the second WR_CTRL is rejected as the first one was, or sets the fields to what they
are; WR_FMT_IN is never rejected. -/
theorem configurationWritesAreIdempotent : Obligations.ConfigurationWritesAreIdempotent := by
  refine fun s t w => ⟨fun h => ?_, fun h => ?_⟩
  · obtain ⟨hb, rfl⟩ | ⟨hb, rfl⟩ := (unlessBusy_eq_next _ _ _).mp h
    · have hagain : exec (.wrCtrl w) (s.setError .busy) = .next ((s.setError .busy).setError .busy) :=
        unlessBusy_of_busy (by rwa [State.setError_busy]) _
      rwa [setError_setError] at hagain
    · exact exec_wrCtrl_of_not_busy w hb
  · cases h
    rfl

/-! ### Transactions while BUSY -/

/-- Settles O48: the effects that move pins or start an operation do not happen while BUSY, and of the
others only the pop touches the rendering. -/
theorem busyProtectsTheOperation : Obligations.BusyProtectsTheOperation := by
  intro i s t hb h
  cases exec_effect h with
  | rdFmtData =>
    refine ⟨?_, fun hi => absurd rfl hi⟩
    cases hv : s.fvalid with
    | true => rw [s.popFmtData_of_fvalid hv]; rfl
    | false => rw [s.popFmtData_of_not_fvalid hv]; rfl
  | wrCtrl _ hn | tx _ hn | csAssert hn | csDeassert hn | sample _ hn | format _ hn =>
    exact absurd (hb.symm.trans hn) (by decide)
  | _ => exact ⟨rfl, fun _ => ⟨rfl, rfl, rfl, rfl, rfl⟩⟩

/-! ### TC and the end of a rendering -/

/-- Without an exchange in flight a turn of the engine starts none, and keeps TC and RXDATA. -/
theorem engineTurn_of_no_exchange {s : State} (miso : Byte) (hx : s.xfer = none) :
    (engineTurn miso s).xfer = none ∧ (engineTurn miso s).tc = s.tc
      ∧ (engineTurn miso s).rx = s.rx := by
  obtain ⟨m, hm, -⟩ | ⟨_, _, h⟩ | ⟨_, _, h⟩ | ⟨_, _, h⟩ | ⟨_, _, h⟩ | ⟨_, _, h⟩ | ⟨_, _, h⟩
    | ⟨_, _, _, _, _, _, _, h⟩ | ⟨_, _, _, h⟩ := engineTurn_cases miso s
  case inl => exact absurd (hx.symm.trans hm) (Option.some_ne_none m).symm
  all_goals rw [h]; exact ⟨hx, rfl, rfl⟩

/-- No turn of the engine ends a rendering or starts one (R93). -/
@[simp] theorem engineTurn_fact (miso : Byte) (s : State) : (engineTurn miso s).fact = s.fact := by
  obtain ⟨_, _, h⟩ | ⟨_, _, h⟩ | ⟨_, _, h⟩ | ⟨_, _, h⟩ | ⟨_, _, h⟩ | ⟨_, _, h⟩ | ⟨_, _, h⟩
    | ⟨_, _, _, _, _, _, _, h⟩ | ⟨_, _, _, h⟩ := engineTurn_cases miso s <;> rw [h] <;> rfl

/-- Settles O57: of the transactions only TX starts an exchange and none sets TC; a turn of the engine
sets TC only where it completes an exchange. -/
theorem consumedTcStaysClear : Obligations.ConsumedTcStaysClear := by
  intro s t htc hx h hnotx
  obtain ⟨r, rest, u, i, hin, ha, hd, he⟩ | ⟨miso, inputs, draws, rfl⟩ := step_cases h
  · cases exec_effect he with
    | tx w => exact absurd hd (hnotx r u w (by rw [hin, List.head?_cons]) ha)
    | _ => simp [htc, hx]
  · obtain ⟨hx', htc', -⟩ :=
      engineTurn_of_no_exchange (s := { s with inputs := inputs, draws := draws }) miso hx
    exact ⟨htc'.trans htc, hx'⟩

/-- Settles O58: of all effects only the pop of the LAST byte clears FACT. -/
theorem renderingHoldsBusy : Obligations.RenderingHoldsBusy := by
  intro s t hf h ht
  obtain ⟨r, rest, u, i, hin, ha, hd, he⟩ | ⟨miso, inputs, draws, rfl⟩ := step_cases h
  · cases exec_effect he with
    | rdFmtData =>
      obtain ⟨hv, hl⟩ : s.fvalid = true ∧ s.flast = true := by simpa [hf] using ht
      exact ⟨hv, hl, r, u, by rw [hin, List.head?_cons], ha, hd⟩
    | _ => simp [hf] at ht
  · simp [hf] at ht

end Sys2Proof.Machine
end

section
/-! The value computations: the Sample as an exact floor (41_adc_sample.md R82), and the sign and the
point of a rendering (42_formatter.md R92). -/

namespace Sys2Proof.Machine

/-- The product of R82 over the rationals is a quotient of natural numbers. -/
theorem exact_sample_eq_div (raw : Nat) :
    (1000 : ℚ) * (((raw : ℚ) * (33 / 10)) / 4096) * 100
      = ((raw * 330000 : ℕ) : ℚ) / ((4096 : ℕ) : ℚ) := by
  push_cast
  ring

/-- Settles O27: the exact value is a quotient of natural numbers, whose floor is their division. -/
theorem scalingIsTheExactFloor : Obligations.ScalingIsTheExactFloor := by
  intro raw
  have hscale := scaleRaw_toNat raw
  refine ⟨?_, ?_, hscale, ?_⟩
  · rw [exact_sample_eq_div, Rat.floor_natCast_div_natCast, hscale, Int.natCast_div]
  · rw [hscale, Nat.mul_assoc]
  · rw [hscale, Nat.shiftRight_eq_div_pow]

/-- Every byte of a digit buffer is the code of a digit, above those of the sign and the point. -/
theorem le_toNat_of_mem_digitBuffer (capacity : Nat) {n : Nat} :
    ∀ b ∈ digitBuffer capacity n, 0x30 ≤ b.toNat := by
  induction capacity generalizing n with
  | zero => simp [digitBuffer]
  | succ capacity ih =>
    intro b hb
    rw [digitBuffer, List.mem_cons] at hb
    obtain rfl | hb := hb
    · rw [toNat_digitCode (Nat.mod_lt n (by decide))]
      omega
    · split at hb
      · simp at hb
      · exact ih b hb

/-- The spelling of a number holds no byte below the digits' codes. -/
theorem count_dec_eq_zero {b : Byte} (hb : b.toNat < 0x30) (n : Nat) : (dec n).count b = 0 := by
  rw [dec, List.count_reverse, List.count_eq_zero]
  intro hmem
  have hle := le_toNat_of_mem_digitBuffer _ b hmem
  omega

/-- A byte below the digits' codes stands in a rendering as often as among its sign and its point. -/
theorem count_render {b : Byte} (hb : b.toNat < 0x30) (x : Word) :
    (render x).count b = (if x.toInt < 0 then [0x2D] else []).count b + [(0x2E : Byte)].count b := by
  simp only [render, List.count_append, count_dec_eq_zero hb, Nat.add_zero]

/-- Settles O36: the digits are neither the sign nor the point. -/
theorem renderingSignAndPoint : Obligations.RenderingSignAndPoint := by
  intro x
  refine ⟨fun hneg => ⟨?_, ?_⟩, fun hpos => ?_, ?_⟩
  · rw [render, if_pos hneg]
    rfl
  · rw [count_render (by decide), if_pos hneg]
    rfl
  · rw [count_render (by decide), if_neg (not_lt.mpr hpos)]
    rfl
  · rw [count_render (by decide)]
    split <;> rfl

end Sys2Proof.Machine
end

section
/-! Noninterference (10_state.md R29, 40_spi_transfer.md R71): two runs from states that agree but for
CTRL, the values read and bit 2 of the channel go through states that agree but for these. One
simulation serves the statements about the channel and about CTRL. -/

namespace Sys2Proof.Machine

/-! ### What the engine does not see -/

/-- The states have the same CTRL fields. -/
def SameCtrl (s t : State) : Prop := t.cpol = s.cpol ∧ t.cpha = s.cpha ∧ t.clkdiv = s.clkdiv

/-- The state with other CTRL fields, another channel and other values read. -/
def State.withHidden (cpol cpha : Bool) (clkdiv : Byte) (ch : BitVec 3) (reads : List Word)
    (s : State) : State :=
  { s with cpol := cpol, cpha := cpha, clkdiv := clkdiv, ch := ch, reads := reads }

section
variable (cpol cpha : Bool) (clkdiv : Byte) (ch : BitVec 3) (reads : List Word) (s : State)

@[simp] theorem State.withHidden_cpol : (s.withHidden cpol cpha clkdiv ch reads).cpol = cpol := rfl
@[simp] theorem State.withHidden_cpha : (s.withHidden cpol cpha clkdiv ch reads).cpha = cpha := rfl
@[simp] theorem State.withHidden_clkdiv :
    (s.withHidden cpol cpha clkdiv ch reads).clkdiv = clkdiv := rfl
@[simp] theorem State.withHidden_ch : (s.withHidden cpol cpha clkdiv ch reads).ch = ch := rfl
@[simp] theorem State.withHidden_reads : (s.withHidden cpol cpha clkdiv ch reads).reads = reads := rfl

theorem State.popFmtData_withHidden : (s.withHidden cpol cpha clkdiv ch reads).popFmtData
    = s.popFmtData.withHidden cpol cpha clkdiv ch reads := by
  rcases Bool.eq_false_or_eq_true s.fvalid with hv | hv
  · rw [(s.withHidden cpol cpha clkdiv ch reads).popFmtData_of_fvalid hv, s.popFmtData_of_fvalid hv]
    rfl
  · rw [(s.withHidden cpol cpha clkdiv ch reads).popFmtData_of_not_fvalid hv,
      s.popFmtData_of_not_fvalid hv]

end

/-- The states agree on all but the CTRL fields, the values read and bit 2 of the channel. -/
structure AgreeButHidden (s t : State) : Prop where
  visible : t = s.withHidden t.cpol t.cpha t.clkdiv t.ch t.reads
  channel : t.ch.extractLsb' 0 2 = s.ch.extractLsb' 0 2

/-- From `s` to `s'` in one run and from `t` to `t'` in the other: the states agree as before, and of
the hidden parts each that was the same is the same again, but for the value of a CTRL read. -/
structure KeepsAgreement (readsCtrl : Prop) (s t s' t' : State) : Prop where
  agree : AgreeButHidden s' t'
  ctrl : SameCtrl s t → SameCtrl s' t'
  channel : t.ch = s.ch → t'.ch = s'.ch
  reads : t.reads = s.reads → (¬ readsCtrl ∨ SameCtrl s t) → t'.reads = s'.reads

theorem AgreeButHidden.exists_eq {s t : State} (h : AgreeButHidden s t) :
    ∃ cpol cpha clkdiv ch reads, t = s.withHidden cpol cpha clkdiv ch reads :=
  ⟨_, _, _, _, _, h.visible⟩

theorem agreeButChannelBit2_iff (s t : State) :
    AgreeButChannelBit2 s t ↔ AgreeButHidden s t ∧ SameCtrl s t ∧ t.reads = s.reads := by
  constructor
  · rintro ⟨h, hc⟩
    obtain ⟨c, rfl⟩ : ∃ c, t = { s with ch := c } := ⟨_, h⟩
    exact ⟨⟨rfl, hc⟩, ⟨rfl, rfl, rfl⟩, rfl⟩
  · rintro ⟨h, ⟨hp, hq, hd⟩, hr⟩
    refine ⟨?_, h.channel⟩
    rw [h.visible, hp, hq, hd, hr]
    rfl

theorem agreeButCtrlAndReads_iff (s t : State) :
    AgreeButCtrlAndReads s t ↔ AgreeButHidden s t ∧ t.ch = s.ch := by
  constructor
  · intro h
    obtain ⟨p, q, d, rs, rfl⟩ :
      ∃ p q d rs, t = { s with cpol := p, cpha := q, clkdiv := d, reads := rs } := ⟨_, _, _, _, h⟩
    exact ⟨⟨rfl, rfl⟩, rfl⟩
  · rintro ⟨h, hc⟩
    have hvisible := h.visible
    rwa [hc] at hvisible

theorem agreeButCtrl_iff (s t : State) :
    AgreeButCtrl s t ↔ AgreeButHidden s t ∧ t.ch = s.ch ∧ t.reads = s.reads := by
  constructor
  · intro h
    obtain ⟨p, q, d, rfl⟩ : ∃ p q d, t = { s with cpol := p, cpha := q, clkdiv := d } := ⟨_, _, _, h⟩
    exact ⟨⟨rfl, rfl⟩, rfl, rfl⟩
  · rintro ⟨h, hc, hr⟩
    have hvisible := h.visible
    rwa [hc, hr] at hvisible

/-! ### Transactions -/

/-- CTRL is read alike where its fields are the same. -/
theorem SameCtrl.ctrlWord_eq {s t : State} (h : SameCtrl s t) : t.ctrlWord = s.ctrlWord := by
  obtain ⟨hp, hq, hd⟩ := h
  rw [State.ctrlWord, hp, hq, hd, State.ctrlWord]

theorem AgreeButHidden.busy_eq {s t : State} (h : AgreeButHidden s t) : t.busy = s.busy := by
  rw [h.visible]
  rfl

theorem AgreeButHidden.cs_eq {s t : State} (h : AgreeButHidden s t) : t.cs = s.cs := by
  rw [h.visible]
  rfl

theorem AgreeButHidden.keepsAgreement {s t : State} (h : AgreeButHidden s t) (p : Prop) :
    KeepsAgreement p s t s t :=
  ⟨h, id, id, fun hr _ => hr⟩

theorem AgreeButHidden.setError {s t : State} (h : AgreeButHidden s t) (p : Prop) (e : ErrorCode) :
    KeepsAgreement p s t (s.setError e) (t.setError e) := by
  have hc := h.channel
  obtain ⟨cpol, cpha, clkdiv, ch, reads, rfl⟩ := h.exists_eq
  cases e <;> exact ⟨⟨rfl, hc⟩, id, id, fun hr _ => hr⟩

/-- The Busy check decides alike in both states. -/
theorem unlessBusy_agree {s t u v s' : State} {p : Prop} (h : AgreeButHidden s t)
    (hk : KeepsAgreement p s t u v) (he : unlessBusy s u = .next s') :
    ∃ t', unlessBusy t v = .next t' ∧ KeepsAgreement p s t s' t' := by
  obtain ⟨hb, rfl⟩ | ⟨hb, rfl⟩ := (unlessBusy_eq_next _ _ _).mp he
  · exact ⟨_, unlessBusy_of_busy (h.busy_eq.trans hb) v, h.setError p .busy⟩
  · exact ⟨_, unlessBusy_of_not_busy (h.busy_eq.trans hb) v, hk⟩

/-- The checks of SAMPLE decide alike, and an accepted SAMPLE latches one channel in both states. -/
theorem execSample_agree {s t s' : State} {p : Prop} (c : Byte) (h : AgreeButHidden s t)
    (he : execSample c s = .next s') :
    ∃ t', execSample c t = .next t' ∧ KeepsAgreement p s t s' t' := by
  have hcs := h.cs_eq
  have hbusy := h.busy_eq
  simp only [execSample_eq_next, hcs, hbusy] at he ⊢
  obtain ⟨hb, rfl⟩ | ⟨hb, hs, rfl⟩ | ⟨hb, hs, hn, rfl⟩ | ⟨hb, hs, hn, rfl⟩ := he
  · exact ⟨_, .inl ⟨hb, rfl⟩, h.setError p _⟩
  · exact ⟨_, .inr (.inl ⟨hb, hs, rfl⟩), h.setError p _⟩
  · exact ⟨_, .inr (.inr (.inl ⟨hb, hs, hn, rfl⟩)), h.setError p _⟩
  · refine ⟨_, .inr (.inr (.inr ⟨hb, hs, hn, rfl⟩)), ?_⟩
    obtain ⟨cpol, cpha, clkdiv, ch, reads, rfl⟩ := h.exists_eq
    exact ⟨⟨rfl, rfl⟩, id, fun _ => rfl, fun hr _ => hr⟩

/-- A transaction performed in two states that agree leaves states that agree. -/
theorem exec_agree {i : Instr} {s t s' : State} (h : AgreeButHidden s t) (he : exec i s = .next s') :
    ∃ t', exec i t = .next t' ∧ KeepsAgreement (i = .rdCtrl) s t s' t' := by
  have hc := h.channel
  have hcs := h.cs_eq
  obtain ⟨cpol, cpha, clkdiv, ch, reads, rfl⟩ := h.exists_eq
  cases i with
  | rdCtrl =>
    cases he
    refine ⟨_, rfl, ⟨rfl, hc⟩, id, id, fun hr hctrl => ?_⟩
    have hsame := hctrl.resolve_left (not_not_intro rfl)
    exact congrArg₂ (fun rs v => rs ++ [v]) hr hsame.ctrlWord_eq
  | rdFmtData =>
    cases he
    refine ⟨_, exec_rdFmtData _, ?_⟩
    have hword : (s.withHidden cpol cpha clkdiv ch reads).fmtDataWord = s.fmtDataWord := rfl
    rw [State.popFmtData_withHidden, hword]
    exact ⟨⟨rfl, by simpa using hc⟩, by simp [SameCtrl], by simp, fun hr _ => by simpa using hr⟩
  | rdStatus | rdTxdata | rdRxdata | rdCmd | rdValue | rdFmtIn | rdUnmapped20 | rdUnmapped40
  | rdUnmapped80 =>
    cases he
    exact ⟨_, rfl, ⟨rfl, hc⟩, id, id, fun hr _ => congrArg (· ++ [_]) hr⟩
  | wrCtrl w =>
    refine unlessBusy_agree h ?_ he
    exact ⟨⟨rfl, hc⟩, fun _ => ⟨rfl, rfl, rfl⟩, id, fun hr _ => hr⟩
  | tx | format =>
    refine unlessBusy_agree h ?_ he
    exact ⟨⟨rfl, hc⟩, id, id, fun hr _ => hr⟩
  | csAssert =>
    refine unlessBusy_agree h ?_ he
    rw [hcs]
    split
    · exact h.keepsAgreement _
    · exact ⟨⟨rfl, hc⟩, id, id, fun hr _ => hr⟩
  | csDeassert =>
    refine unlessBusy_agree h ?_ he
    rw [hcs]
    split
    · exact ⟨⟨rfl, hc⟩, id, id, fun hr _ => hr⟩
    · exact h.keepsAgreement _
  | sample c => exact execSample_agree c h he
  | _ =>
    cases he
    exact ⟨_, rfl, ⟨rfl, hc⟩, id, id, fun hr _ => hr⟩

/-! ### Turns of the engine -/

/-- The channel byte does not hold bit 2 of the channel (R77, R86). -/
theorem channelByte_eq_of_low : ∀ c d : BitVec 3, c.extractLsb' 0 2 = d.extractLsb' 0 2 →
    channelByte c = channelByte d := by decide

section
variable {s : State} {cpol cpha : Bool} {clkdiv : Byte} {ch : BitVec 3} {reads : List Word}
  (miso : Byte)

theorem xdoneStep_withHidden : xdoneStep miso (s.withHidden cpol cpha clkdiv ch reads)
    = (xdoneStep miso s).map (State.withHidden cpol cpha clkdiv ch reads) := by
  have hx : (s.withHidden cpol cpha clkdiv ch reads).xfer = s.xfer := rfl
  rw [xdoneStep, xdoneStep, hx]
  cases s.xfer <;> rfl

/-- Phase X2 sends the channel byte; the other phases use nothing hidden (R75 to R80). -/
theorem acqStep_withHidden (hbyte : channelByte ch = channelByte s.ch) :
    acqStep miso (s.withHidden cpol cpha clkdiv ch reads)
      = (acqStep miso s).map (State.withHidden cpol cpha clkdiv ch reads) := by
  have hq : (s.withHidden cpol cpha clkdiv ch reads).seq = s.seq := rfl
  rw [acqStep, acqStep, hq]
  cases s.seq with
  | x2 => simp only [phaseX2, State.withHidden_ch, hbyte]; rfl
  | _ => rfl

theorem emitStep_withHidden : emitStep (s.withHidden cpol cpha clkdiv ch reads)
    = (emitStep s).map (State.withHidden cpol cpha clkdiv ch reads) := by
  have hf : (s.withHidden cpol cpha clkdiv ch reads).fact = s.fact := rfl
  have hv : (s.withHidden cpol cpha clkdiv ch reads).fvalid = s.fvalid := rfl
  have hp : (s.withHidden cpol cpha clkdiv ch reads).fpend = s.fpend := rfl
  rw [emitStep, emitStep, hf, hv, hp]
  split
  · cases s.fpend <;> rfl
  · rfl

/-- A turn of the engine neither uses nor changes what is hidden. -/
theorem engineTurn_withHidden (hbyte : channelByte ch = channelByte s.ch) :
    engineTurn miso (s.withHidden cpol cpha clkdiv ch reads)
      = (engineTurn miso s).withHidden cpol cpha clkdiv ch reads := by
  rw [engineTurn, engineStep, xdoneStep_withHidden, acqStep_withHidden miso hbyte, emitStep_withHidden,
    ← Option.map_or, ← Option.map_or, Option.getD_map]
  rfl

end

theorem engineTurn_keeps_hidden (miso : Byte) (s : State) :
    SameCtrl s (engineTurn miso s) ∧ (engineTurn miso s).ch = s.ch
      ∧ (engineTurn miso s).reads = s.reads := by
  obtain ⟨_, _, h⟩ | ⟨_, _, h⟩ | ⟨_, _, h⟩ | ⟨_, _, h⟩ | ⟨_, _, h⟩ | ⟨_, _, h⟩ | ⟨_, _, h⟩
    | ⟨_, _, _, _, _, _, _, h⟩ | ⟨_, _, _, h⟩ := engineTurn_cases miso s
    <;> rw [h] <;> exact ⟨⟨rfl, rfl, rfl⟩, rfl, rfl⟩

/-- A turn of the engine in two states that agree leaves states that agree. -/
theorem engineTurn_agree {s t : State} (miso : Byte) (p : Prop) (h : AgreeButHidden s t) :
    KeepsAgreement p s t (engineTurn miso s) (engineTurn miso t) := by
  have hc := h.channel
  obtain ⟨⟨hp, hq, hd⟩, hch, hr⟩ := engineTurn_keeps_hidden miso s
  obtain ⟨cpol, cpha, clkdiv, ch, reads, rfl⟩ := h.exists_eq
  rw [engineTurn_withHidden (ch := ch) miso (channelByte_eq_of_low _ _ hc)]
  exact ⟨⟨rfl, by simpa [hch] using hc⟩, by simp [SameCtrl, hp, hq, hd], by simp [hch],
    fun hreads _ => by simpa [hr] using hreads⟩

/-! ### Steps and runs -/

/-- The next step is a read of CTRL. -/
def State.readsCtrl (s : State) : Prop :=
  ∃ r u, s.inputs.head? = some (.host r) ∧ r.toWord = .ok u ∧ decode u = .ok .rdCtrl

/-- States that agree have the same turns to come. -/
theorem AgreeButHidden.inputs_eq {s t : State} (h : AgreeButHidden s t) :
    t.inputs = s.inputs ∧ t.draws = s.draws := by
  rw [h.visible]
  exact ⟨rfl, rfl⟩

theorem AgreeButHidden.withInputs {s t : State} (h : AgreeButHidden s t) (inputs : List Input) :
    AgreeButHidden { s with inputs := inputs } { t with inputs := inputs } := by
  have hc := h.channel
  obtain ⟨cpol, cpha, clkdiv, ch, reads, rfl⟩ := h.exists_eq
  exact ⟨rfl, hc⟩

theorem AgreeButHidden.withDraws {s t : State} (h : AgreeButHidden s t) (draws : Nat) :
    AgreeButHidden { s with draws := draws } { t with draws := draws } := by
  have hc := h.channel
  obtain ⟨cpol, cpha, clkdiv, ch, reads, rfl⟩ := h.exists_eq
  exact ⟨rfl, hc⟩

/-- A step from two states that agree leaves states that agree. -/
theorem step_agree {s t s' : State} (h : AgreeButHidden s t) (hstep : step s = .next s') :
    ∃ t', step t = .next t' ∧ KeepsAgreement s.readsCtrl s t s' t' := by
  obtain ⟨hinputs, hdraws⟩ := h.inputs_eq
  match hin : s.inputs with
  | .host r :: rest =>
    rw [step_of_host hin] at hstep
    obtain ⟨u, i, ha, hd, he⟩ := hostTurn_eq_next hstep
    obtain ⟨t', ht', hk⟩ := exec_agree (h.withInputs rest) he
    have hreads : i = .rdCtrl → s.readsCtrl := by
      rintro rfl
      exact ⟨r, u, by rw [hin, List.head?_cons], ha, hd⟩
    refine ⟨t', ?_, hk.agree, hk.ctrl, hk.channel, fun hr hor => hk.reads hr (hor.imp_left (mt hreads))⟩
    rw [step_of_host (hinputs.trans hin), hostTurn_of_decode _ ha hd, ht']
  | .engine miso :: rest =>
    rw [step_of_engine hin] at hstep
    cases hstep
    have hk := engineTurn_agree miso s.readsCtrl (h.withInputs rest)
    exact ⟨_, step_of_engine (hinputs.trans hin), hk.agree, hk.ctrl, hk.channel, hk.reads⟩
  | [] =>
    rw [step_of_no_input hin] at hstep
    cases hstep
    have hk := engineTurn_agree (Config.freeMiso s.draws) s.readsCtrl (h.withDraws (s.draws + 1))
    refine ⟨_, step_of_no_input (hinputs.trans hin), ?_⟩
    rw [hdraws]
    exact ⟨hk.agree, hk.ctrl, hk.channel, hk.reads⟩

/-- A relation that every step carries over to the other state, every run carries over. -/
theorem run_simulates {R : State → State → Prop}
    (hstep : ∀ s t s', R s t → step s = .next s' → ∃ t', step t = .next t' ∧ R s' t') :
    ∀ (k : Nat) (s t s' : State), R s t → core.run k s = .next s' →
      ∃ t', core.run k t = .next t' ∧ R s' t'
  | 0, _, t, _, hR, hrun => by
    cases hrun
    exact ⟨t, rfl, hR⟩
  | k + 1, s, t, s', hR, hrun => by
    obtain ⟨u, hu, hrun⟩ := run_succ_eq_next hrun
    obtain ⟨v, hv, hR⟩ := hstep s t u hR hu
    rw [run_succ_of_next k hv]
    exact run_simulates hstep k u v s' hR hrun

/-! ### The channel -/

/-- Channels `c` and `c + 4` send the same byte (R86). -/
theorem channelByte_toNat : ∀ c : BitVec 3,
    (channelByte c).toNat = c.toNat % 4 * 64 ∧ channelByte c = channelByte (c + 4) := by decide

/-- A step carries a difference in bit 2 of the channel nowhere else. -/
theorem step_agreeButChannelBit2 {s t s' : State} (hR : AgreeButChannelBit2 s t)
    (hstep : step s = .next s') : ∃ t', step t = .next t' ∧ AgreeButChannelBit2 s' t' := by
  simp only [agreeButChannelBit2_iff] at hR ⊢
  obtain ⟨h, hctrl, hreads⟩ := hR
  obtain ⟨t', ht', hk⟩ := step_agree h hstep
  exact ⟨t', ht', hk.agree, hk.ctrl hctrl, hk.reads hreads (.inr hctrl)⟩

/-- Settles O29: where only bit 2 of the channel differs, CTRL and the values read stay the same. -/
theorem channelBit2IsUnobservable : Obligations.ChannelBit2IsUnobservable :=
  ⟨channelByte_toNat, run_simulates fun _ _ _ => step_agreeButChannelBit2⟩

/-! ### CTRL -/

/-- No listed request is a read of CTRL. -/
def NoCtrlRead (inputs : List Input) : Prop :=
  ∀ r u, Input.host r ∈ inputs → r.toWord = .ok u → decode u ≠ .ok .rdCtrl

theorem NoCtrlRead.not_readsCtrl {s : State} (h : NoCtrlRead s.inputs) : ¬ s.readsCtrl := by
  rintro ⟨r, u, hhead, ha, hd⟩
  exact h r u (List.mem_of_head? hhead) ha hd

/-- A step uses up the first of the turns to come. -/
theorem step_inputs {s t : State} (h : step s = .next t) : t.inputs = s.inputs.tail := by
  match hin : s.inputs with
  | .host r :: rest =>
    rw [step_of_host hin] at h
    obtain ⟨_, _, -, -, he⟩ := hostTurn_eq_next h
    exact (exec_effect he).environment.1
  | .engine miso :: rest =>
    rw [step_of_engine hin] at h
    cases h
    exact engineTurn_inputs _ _
  | [] =>
    rw [step_of_no_input hin] at h
    cases h
    exact (engineTurn_inputs _ _).trans hin

theorem NoCtrlRead.step {s t : State} (h : NoCtrlRead s.inputs) (hstep : step s = .next t) :
    NoCtrlRead t.inputs := by
  rw [step_inputs hstep]
  exact fun r u hr => h r u (List.mem_of_mem_tail hr)

/-- A step that does not read CTRL carries no difference in CTRL elsewhere. -/
theorem step_agreeButCtrl {s t s' : State} (hR : AgreeButCtrl s t ∧ NoCtrlRead s.inputs)
    (hstep : step s = .next s') :
    ∃ t', step t = .next t' ∧ AgreeButCtrl s' t' ∧ NoCtrlRead s'.inputs := by
  simp only [agreeButCtrl_iff] at hR ⊢
  obtain ⟨⟨h, hch, hreads⟩, hno⟩ := hR
  obtain ⟨t', ht', hk⟩ := step_agree h hstep
  exact ⟨t', ht', ⟨hk.agree, hk.channel hch, hk.reads hreads (.inl hno.not_readsCtrl)⟩, hno.step hstep⟩

/-- A step carries a difference in CTRL and the values read nowhere else. -/
theorem step_agreeButCtrlAndReads {s t s' : State} (hR : AgreeButCtrlAndReads s t)
    (hstep : step s = .next s') : ∃ t', step t = .next t' ∧ AgreeButCtrlAndReads s' t' := by
  simp only [agreeButCtrlAndReads_iff] at hR ⊢
  obtain ⟨h, hch⟩ := hR
  obtain ⟨t', ht', hk⟩ := step_agree h hstep
  exact ⟨t', ht', hk.agree, hk.channel hch⟩

/-- Settles O56: where only CTRL and the values read differ, the channel stays the same; and where the
host does not read CTRL the values read stay the same too. -/
theorem ctrlDoesNotInfluenceRuns : Obligations.CtrlDoesNotInfluenceRuns := by
  refine ⟨run_simulates fun _ _ _ => step_agreeButCtrlAndReads, fun k s t s' hagree hrun hno => ?_⟩
  obtain ⟨t', ht', hR, -⟩ := run_simulates (R := fun s t => AgreeButCtrl s t ∧ NoCtrlRead s.inputs)
    (fun _ _ _ => step_agreeButCtrl) k s t s' ⟨hagree, hno⟩ hrun
  exact ⟨t', ht', hR⟩

end Sys2Proof.Machine
end

section
/-! Operations in flight run to their end (40_spi_transfer.md section 3, 41_adc_sample.md section 2):
while BUSY the host's transactions leave the operation alone, so that what it does is what the engine's
turns alone would do. -/

namespace Sys2Proof.Machine

/-- A run goes on where its first part ended. -/
theorem run_add {s t : State} (k : Nat) : ∀ {j : Nat}, core.run j s = .next t →
    core.run (j + k) s = core.run k t := by
  intro j
  induction j generalizing s with
  | zero =>
    intro h
    cases h
    rw [Nat.zero_add]
  | succ j ih =>
    intro h
    obtain ⟨u, hu, hrun⟩ := run_succ_eq_next h
    rw [Nat.succ_add, run_succ_of_next _ hu]
    exact ih hrun

/-! ### The operation in flight -/

/-- The part of the state that an exchange or a sample in flight consists of, with what it has recorded;
the rest is as at reset. -/
def State.operation (s : State) : State :=
  { State.reset with
    cs := s.cs, rx := s.rx, xfer := s.xfer, seq := s.seq, ch := s.ch, hi := s.hi, lo := s.lo,
    raw := s.raw, value := s.value, sdone := s.sdone, trace := s.trace }

section
variable {s t : State} (h : t.operation = s.operation)
include h

theorem xfer_of_operation_eq : t.xfer = s.xfer := (congrArg State.xfer h :)
theorem seq_of_operation_eq : t.seq = s.seq := (congrArg State.seq h :)
theorem cs_of_operation_eq : t.cs = s.cs := (congrArg State.cs h :)
theorem rx_of_operation_eq : t.rx = s.rx := (congrArg State.rx h :)
theorem hi_of_operation_eq : t.hi = s.hi := (congrArg State.hi h :)
theorem lo_of_operation_eq : t.lo = s.lo := (congrArg State.lo h :)
theorem trace_of_operation_eq : t.trace = s.trace := (congrArg State.trace h :)

end

/-- While BUSY a transaction leaves the operation alone and starts no rendering (R111). -/
theorem exec_keeps_operation {i : Instr} {s t : State} (hb : s.busy = true) (h : exec i s = .next t) :
    t.operation = s.operation ∧ (s.fact = false → t.fact = false) := by
  obtain ⟨hframe, hrest⟩ := busyProtectsTheOperation i s t hb h
  refine ⟨by rw [hframe]; rfl, fun hf => ?_⟩
  by_cases hi : i = .rdFmtData
  · subst hi
    simp [exec_rdFmtData_eq_next h, hf]
  · exact (hrest hi).2.1.trans hf

/-- What a turn of the engine makes of the operation depends on the operation alone. -/
theorem operation_engineTurn (miso : Byte) (s : State) :
    (engineTurn miso s).operation = (engineTurn miso s.operation).operation := by
  obtain ⟨m, hx, h⟩ | ⟨hx, hq, h⟩ | ⟨hx, hq, h⟩ | ⟨hx, hq, h⟩ | ⟨hx, hq, h⟩ | ⟨hx, hq, h⟩
    | ⟨hx, hq, h⟩ | ⟨hx, hq, -, -, b, rest, -, h⟩ | ⟨hx, hq, -, h⟩ := engineTurn_cases miso s <;> rw [h]
  · rw [engineTurn_of_xfer (s := s.operation) miso hx]; rfl
  · rw [engineTurn_of_cslo (s := s.operation) miso hx hq]; rfl
  · rw [engineTurn_of_x1 (s := s.operation) miso hx hq]; rfl
  · rw [engineTurn_of_x2 (s := s.operation) miso hx hq]; rfl
  · rw [engineTurn_of_x3 (s := s.operation) miso hx hq]; rfl
  · rw [engineTurn_of_cshi (s := s.operation) miso hx hq]; rfl
  · rw [engineTurn_of_scale (s := s.operation) miso hx hq]; rfl
  · rw [engineTurn_of_idle (s := s.operation) hx hq]; rfl
  · rw [engineTurn_of_idle (s := s.operation) hx hq]; rfl

theorem operation_engineTurn_congr {s t : State} (miso : Byte) (h : s.operation = t.operation) :
    (engineTurn miso s).operation = (engineTurn miso t).operation := by
  rw [operation_engineTurn, h, ← operation_engineTurn]

/-- The state after turns of the engine with the given answers. -/
def engineTurns (answers : List Byte) (s : State) : State :=
  answers.foldl (fun u miso => engineTurn miso u) s

theorem operation_engineTurns_congr {s t : State} (answers : List Byte)
    (h : s.operation = t.operation) :
    (engineTurns answers s).operation = (engineTurns answers t).operation := by
  induction answers generalizing s t with
  | nil => exact h
  | cons miso answers ih => exact ih (operation_engineTurn_congr miso h)

/-- With an exchange or a sample in flight and admitted requests only, the engine gets its turn, within
the listed inputs and one turn more, and finds the operation as it was. -/
theorem exists_engine_turn {inputs : List Input} : ∀ {s : State}, s.inputs = inputs →
    InputsAdmitted inputs → (s.xfer ≠ none ∨ s.seq ≠ .idle) →
    ∃ (k : Nat) (u : State) (miso : Byte), core.run k s = .next (engineTurn miso u)
      ∧ u.operation = s.operation ∧ (s.fact = false → u.fact = false)
      ∧ InputsAdmitted u.inputs ∧ k + u.inputs.length ≤ inputs.length + 1 := by
  induction inputs with
  | nil =>
    intro s hin hadm _
    exact ⟨1, { s with draws := s.draws + 1 }, _, run_succ_of_next 0 (step_of_no_input hin), rfl, id,
      hin ▸ hadm, by simp [hin]⟩
  | cons x rest ih =>
    intro s hin hadm hop
    cases x with
    | engine miso =>
      exact ⟨1, { s with inputs := rest }, miso, run_succ_of_next 0 (step_of_engine hin), rfl, id,
        hadm.tail, by simp; omega⟩
    | host r =>
      obtain ⟨i, t, -, hstep, he, ht⟩ := exists_step_of_host hin (hadm.head r rfl)
      have hb : ({ s with inputs := rest } : State).busy = true :=
        (State.busy_eq_true_iff _).mpr (hop.imp_right .inl)
      obtain ⟨hkeep, hfact⟩ := exec_keeps_operation hb he
      have hx : t.xfer = s.xfer := xfer_of_operation_eq hkeep
      have hq : t.seq = s.seq := seq_of_operation_eq hkeep
      obtain ⟨k, u, miso, hrun, hu, hf, hadm', hk⟩ := ih ht hadm.tail (hx ▸ hq ▸ hop)
      refine ⟨k + 1, u, miso, (run_succ_of_next k hstep).trans hrun, hu.trans hkeep,
        fun h => hf (hfact h), hadm', ?_⟩
      rw [List.length_cons]
      omega

/-- Settles O54: the engine gets its turn with the exchange as it was, and completes it. -/
theorem acceptedExchangeCompletes : Obligations.AcceptedExchangeCompletes := by
  intro s m hadm hx
  obtain ⟨k, u, miso, hrun, hu, -, -, hk⟩ := exists_engine_turn rfl hadm (.inl (by simp [hx]))
  have hux : u.xfer = some m := (xfer_of_operation_eq hu).trans hx
  have htrace : u.trace = s.trace := trace_of_operation_eq hu
  rw [engineTurn_of_xfer miso hux] at hrun
  refine ⟨k, _, miso, by omega, hrun, rfl, rfl, rfl, ?_⟩
  rw [← htrace]
  rfl

/-! ### The phases of a sample -/

/-- The engine's turns that a sample in the phase still takes (R73). -/
def Phase.turnsLeft : Phase → Nat
  | .idle => 0
  | .cslo => 6
  | .x1 => 5
  | .x2 => 4
  | .x3 => 3
  | .cshi => 2
  | .scale => 1

theorem Phase.turnsLeft_eq_zero_iff (p : Phase) : p.turnsLeft = 0 ↔ p = .idle := by
  cases p <;> simp [Phase.turnsLeft]

theorem Phase.turnsLeft_eq_one_iff (p : Phase) : p.turnsLeft = 1 ↔ p = .scale := by
  cases p <;> simp [Phase.turnsLeft]

/-- A sample is in flight, alone, and its last phase finds chip-select deasserted. -/
structure SampleInFlight (s : State) : Prop where
  no_exchange : s.xfer = none
  no_rendering : s.fact = false
  in_phase : s.seq ≠ .idle
  deselected : s.seq = .scale → s.cs = false

theorem SampleInFlight.of_operation_eq {s t : State} (h : SampleInFlight s)
    (hop : t.operation = s.operation) (hf : t.fact = false) : SampleInFlight t := by
  have hx : t.xfer = s.xfer := xfer_of_operation_eq hop
  have hq : t.seq = s.seq := seq_of_operation_eq hop
  have hcs : t.cs = s.cs := cs_of_operation_eq hop
  exact ⟨hx.trans h.no_exchange, hf, hq ▸ h.in_phase, by rw [hq, hcs]; exact h.deselected⟩

/-- A turn of the engine before the last phase leads to the next phase. -/
theorem SampleInFlight.engineTurn {s : State} (h : SampleInFlight s) (miso : Byte)
    (hleft : 1 < s.seq.turnsLeft) :
    SampleInFlight (engineTurn miso s) ∧ (engineTurn miso s).seq.turnsLeft + 1 = s.seq.turnsLeft := by
  have hx := h.no_exchange
  have hf := h.no_rendering
  cases hq : s.seq with
  | idle => exact absurd hq h.in_phase
  | cslo =>
    rw [engineTurn_of_cslo miso hx hq]
    exact ⟨⟨hx, hf, by simp [phaseCslo], by simp [phaseCslo]⟩, rfl⟩
  | x1 =>
    rw [engineTurn_of_x1 miso hx hq]
    exact ⟨⟨hx, hf, by simp [phaseX1], by simp [phaseX1]⟩, rfl⟩
  | x2 =>
    rw [engineTurn_of_x2 miso hx hq]
    exact ⟨⟨hx, hf, by simp [phaseX2], by simp [phaseX2]⟩, rfl⟩
  | x3 =>
    rw [engineTurn_of_x3 miso hx hq]
    exact ⟨⟨hx, hf, by simp [phaseX3], by simp [phaseX3]⟩, rfl⟩
  | cshi =>
    rw [engineTurn_of_cshi miso hx hq]
    exact ⟨⟨hx, hf, by simp [phaseCshi], fun _ => rfl⟩, rfl⟩
  | scale => simp [hq, Phase.turnsLeft] at hleft

/-- The end of a sample: the block is idle, SDONE is set and chip-select is deasserted (R79, R80). -/
theorem SampleInFlight.phaseScale {s : State} (h : SampleInFlight s) (hq : s.seq = .scale) :
    (phaseScale s).busy = false ∧ (phaseScale s).sdone = true ∧ (phaseScale s).cs = false :=
  ⟨(State.busy_eq_false_iff _).mpr ⟨h.no_exchange, rfl, h.no_rendering⟩, rfl, h.deselected hq⟩

/-- A sample in flight completes within the listed inputs and as many turns as its phases. -/
theorem exists_sample_end (left : Nat) : ∀ {s : State}, SampleInFlight s → InputsAdmitted s.inputs →
    s.seq.turnsLeft = left + 1 →
    ∃ (k : Nat) (t : State), k ≤ s.inputs.length + (left + 1) ∧ core.run k s = .next t
      ∧ t.busy = false ∧ t.sdone = true ∧ t.cs = false := by
  induction left with
  | zero =>
    intro s h hadm hleft
    obtain ⟨k, u, miso, hrun, hu, hf, -, hk⟩ := exists_engine_turn rfl hadm (.inr h.in_phase)
    have hsample := h.of_operation_eq hu (hf h.no_rendering)
    have hq : u.seq = .scale := (seq_of_operation_eq hu).trans ((Phase.turnsLeft_eq_one_iff _).mp hleft)
    rw [engineTurn_of_scale miso hsample.no_exchange hq] at hrun
    exact ⟨k, _, by omega, hrun, hsample.phaseScale hq⟩
  | succ left ih =>
    intro s h hadm hleft
    obtain ⟨k, u, miso, hrun, hu, hf, hadm', hk⟩ := exists_engine_turn rfl hadm (.inr h.in_phase)
    have hq : u.seq = s.seq := seq_of_operation_eq hu
    obtain ⟨hnext, hnextLeft⟩ :=
      (h.of_operation_eq hu (hf h.no_rendering)).engineTurn miso (by rw [hq]; omega)
    rw [hq] at hnextLeft
    obtain ⟨k', t, hk', hrun', ht⟩ := ih hnext (by rwa [engineTurn_inputs]) (by omega)
    rw [engineTurn_inputs] at hk'
    exact ⟨k + k', t, by omega, (run_add k' hrun).trans hrun', ht⟩

theorem Phase.turnsLeft_le (p : Phase) : p.turnsLeft ≤ 6 := by
  cases p <;> decide

/-- Settles O55: the invariant gives the sequencer to the sample alone, which has at most six turns
left. -/
theorem acceptedSampleCompletes : Obligations.AcceptedSampleCompletes := by
  intro s hinv hadm hq
  have h : SampleInFlight s := ⟨hinv.xfer_of_sample hq, (hinv.sample_alone hq).1, hq,
    fun hscale => hinv.sample_unselected (.inr hscale)⟩
  obtain ⟨left, hleft⟩ := Nat.exists_eq_succ_of_ne_zero (mt (Phase.turnsLeft_eq_zero_iff _).mp hq)
  have hle := Phase.turnsLeft_le s.seq
  obtain ⟨k, t, hk, hrun, ht⟩ := exists_sample_end left h hadm hleft
  exact ⟨k, t, by omega, hrun, ht⟩

/-! ### A whole sample -/

/-- While a sample is in flight the host's turns change nothing of what the engine's turns among them do
to the operation. -/
theorem run_sample {rest : List Input} (pre : List Input) : ∀ {s : State}, SampleInFlight s →
    s.inputs = pre ++ rest → InputsAdmitted pre → (engineAnswers pre).length < s.seq.turnsLeft →
    ∃ t : State, core.run pre.length s = .next t ∧ t.inputs = rest ∧ SampleInFlight t
      ∧ t.operation = (engineTurns (engineAnswers pre) s).operation := by
  induction pre with
  | nil => exact fun h hin _ _ => ⟨_, rfl, hin, h, rfl⟩
  | cons x pre ih =>
    intro s h hin hadm hleft
    cases x with
    | engine miso =>
      simp only [engineAnswers, List.length_cons] at hleft
      have h' : SampleInFlight { s with inputs := pre ++ rest } := h.of_operation_eq rfl h.no_rendering
      obtain ⟨hnext, hnextLeft⟩ := h'.engineTurn miso (Nat.lt_of_le_of_lt (Nat.le_add_left _ _) hleft)
      obtain ⟨t, hrun, ht, hsample, hop⟩ := ih hnext (engineTurn_inputs _ _) hadm.tail
        (Nat.lt_of_succ_lt_succ (hleft.trans_eq hnextLeft.symm))
      refine ⟨t, (run_succ_of_next _ (step_of_engine hin)).trans hrun, ht, hsample, hop.trans ?_⟩
      exact operation_engineTurns_congr _ (operation_engineTurn_congr miso rfl)
    | host r =>
      obtain ⟨i, u, -, hstep, he, hu⟩ := exists_step_of_host hin (hadm.head r rfl)
      have hb : ({ s with inputs := pre ++ rest } : State).busy = true :=
        (State.busy_eq_true_iff _).mpr (.inr (.inl h.in_phase))
      obtain ⟨hkeep, hfact⟩ := exec_keeps_operation hb he
      have hq : u.seq = s.seq := seq_of_operation_eq hkeep
      obtain ⟨t, hrun, ht, hsample, hop⟩ :=
        ih (h.of_operation_eq hkeep (hfact h.no_rendering)) hu hadm.tail (hq ▸ hleft)
      exact ⟨t, (run_succ_of_next _ hstep).trans hrun, ht, hsample,
        hop.trans (operation_engineTurns_congr _ hkeep)⟩

section
variable (miso : Byte) (s : State)

@[simp] theorem phaseCslo_xfer : (phaseCslo s).xfer = s.xfer := rfl
@[simp] theorem phaseX1_xfer : (phaseX1 miso s).xfer = s.xfer := rfl
@[simp] theorem phaseX2_xfer : (phaseX2 miso s).xfer = s.xfer := rfl
@[simp] theorem phaseX3_xfer : (phaseX3 miso s).xfer = s.xfer := rfl

end

/-- The first five turns of a sample (R75 to R79). -/
theorem engineTurns_of_cslo {s : State} (d1 s1 s2 s3 d5 : Byte) (hx : s.xfer = none)
    (hq : s.seq = .cslo) :
    engineTurns [d1, s1, s2, s3, d5] s
      = phaseCshi (phaseX3 s3 (phaseX2 s2 (phaseX1 s1 (phaseCslo s)))) := by
  simp only [engineTurns, List.foldl_cons, List.foldl_nil]
  rw [engineTurn_of_cslo d1 hx hq, engineTurn_of_x1 s1 (by simp [hx]) rfl,
    engineTurn_of_x2 s2 (by simp [hx]) rfl, engineTurn_of_x3 s3 (by simp [hx]) rfl,
    engineTurn_of_cshi d5 (by simp [hx]) rfl]

/-- The host's turn with the word of an instruction performs it. -/
theorem step_of_encode {s : State} {i : Instr} {rest : List Input} (hi : WellFormed i = true)
    (hin : s.inputs = .host (.reg (encode i)) :: rest) : step s = exec i { s with inputs := rest } :=
  (step_of_host hin).trans (hostTurn_of_decode _ rfl (decodeOfEncode i hi))

/-- The state that an accepted SAMPLE of the channel starts from. -/
def State.sampleStarted (channel : Byte) (s : State) : State :=
  { s with ch := BitVec.ofNat 3 channel.toNat, sdone := false, seq := .cslo }

theorem sampleInFlight_sampleStarted {s : State} (c : Byte) (hb : s.busy = false) :
    SampleInFlight (s.sampleStarted c) := by
  obtain ⟨hx, -, hf⟩ := (State.busy_eq_false_iff s).mp hb
  exact ⟨hx, hf, by simp [State.sampleStarted], by simp [State.sampleStarted]⟩

/-- The channel byte of a legal channel (R77). -/
theorem channelByte_ofNat {c : Byte} (hc : c.toNat ≤ 7) :
    channelByte (BitVec.ofNat 3 c.toNat) = BitVec.ofNat 8 (c.toNat * 64) := by
  rw [channelByte_eq_ofNat, BitVec.toNat_ofNat, Nat.mod_eq_of_lt (by omega)]

/-- The raw word of the two answers that a sample keeps (R77, R78, R81). -/
theorem rawWord_highNibble_toNat (s2 s3 : Byte) :
    (rawWord (highNibble s2) s3).toNat = s2.toNat % 16 * 256 + s3.toNat := by
  rw [rawWord_toNat, highNibble_eq_ofNat, BitVec.toNat_ofNat, Nat.mod_mod]

/-- What a sample has recorded when its last phase comes. -/
structure SampleRecorded (s : State) (c s1 s2 s3 : Byte) (t : State) : Prop where
  in_scale : t.seq = .scale
  rx : t.rx = s.rx
  hi : t.hi = highNibble s2
  lo : t.lo = s3
  trace : t.trace = s.trace ++ [.csLow, .xchg 0x06 s1, .xchg (BitVec.ofNat 8 (c.toNat * 64)) s2,
    .xchg 0x00 s3, .csHigh]

theorem sampleRecorded_phases {s : State} {c : Byte} (s1 s2 s3 : Byte) (hc : c.toNat ≤ 7) :
    SampleRecorded s c s1 s2 s3
      (phaseCshi (phaseX3 s3 (phaseX2 s2 (phaseX1 s1 (phaseCslo (s.sampleStarted c)))))) := by
  constructor <;>
    simp [-BitVec.ofNat_toNat, phaseCshi, phaseX3, phaseX2, phaseX1, phaseCslo, State.sampleStarted,
      channelByte_ofNat hc, Config.ctrlByte, Config.dummyByte]

theorem SampleRecorded.of_operation_eq {s t u : State} {c s1 s2 s3 : Byte}
    (h : SampleRecorded s c s1 s2 s3 t) (hop : u.operation = t.operation) :
    SampleRecorded s c s1 s2 s3 u where
  in_scale := (seq_of_operation_eq hop).trans h.in_scale
  rx := (rx_of_operation_eq hop).trans h.rx
  hi := (hi_of_operation_eq hop).trans h.hi
  lo := (lo_of_operation_eq hop).trans h.lo
  trace := (trace_of_operation_eq hop).trans h.trace

/-- The last turn of a sample, and what the host can then read of it (R80). -/
theorem SampleRecorded.end {s t : State} {c s1 s2 s3 : Byte} (h : SampleRecorded s c s1 s2 s3 t) :
    (phaseScale t).raw.toNat = s2.toNat % 16 * 256 + s3.toNat
      ∧ (phaseScale t).value.toNat = (s2.toNat % 16 * 256 + s3.toNat) * 330000 / 4096 := by
  have hraw : (rawWord t.hi t.lo).toNat = s2.toNat % 16 * 256 + s3.toNat := by
    rw [h.hi, h.lo, rawWord_highNibble_toNat]
  exact ⟨hraw, (scaleRaw_toNat _).trans (by rw [hraw])⟩

/-- From an accepted SAMPLE to its last phase: the host's turns leave what the engine's five record. -/
theorem run_sampleStarted {s : State} {c d1 s1 s2 s3 d5 : Byte} {pre rest : List Input}
    (hb : s.busy = false) (hc : c.toNat ≤ 7) (hin : s.inputs = pre ++ rest) (hadm : InputsAdmitted pre)
    (hanswers : engineAnswers pre = [d1, s1, s2, s3, d5]) :
    ∃ t : State, core.run pre.length (s.sampleStarted c) = .next t ∧ t.inputs = rest ∧ SampleInFlight t
      ∧ SampleRecorded s c s1 s2 s3 t := by
  have hlen : (engineAnswers pre).length < (s.sampleStarted c).seq.turnsLeft := by
    rw [hanswers]
    exact Nat.lt_succ_self 5
  obtain ⟨t, hrun, ht, hsample, hop⟩ :=
    run_sample (rest := rest) pre (sampleInFlight_sampleStarted c hb) hin hadm hlen
  have hx : (s.sampleStarted c).xfer = none := ((State.busy_eq_false_iff s).mp hb).1
  rw [hanswers, engineTurns_of_cslo d1 s1 s2 s3 d5 hx rfl] at hop
  exact ⟨t, hrun, ht, hsample, (sampleRecorded_phases s1 s2 s3 hc).of_operation_eq hop⟩

theorem step_of_scale {s : State} {miso : Byte} {rest : List Input} (h : SampleInFlight s)
    (hq : s.seq = .scale) (hin : s.inputs = .engine miso :: rest) :
    step s = .next (phaseScale { s with inputs := rest }) := by
  rw [step_of_engine hin]
  exact congrArg _ (engineTurn_of_scale miso h.no_exchange hq)

/-- Settles O30: an accepted SAMPLE, the interleaved turns up to the last phase, and the turn that
computes the Sample. -/
theorem sampleTraceUnderEveryInterleaving : Obligations.SampleTraceUnderEveryInterleaving := by
  intro s c pre d1 s1 s2 s3 d5 d6 rest hb hcs hc hin hadm hanswers
  have hstart : step s
      = .next (State.sampleStarted c { s with inputs := pre ++ .engine d6 :: rest }) :=
    (step_of_encode rfl hin).trans ((sampleStartsTheSequence { s with inputs := _ } c).1 hb hcs hc)
  obtain ⟨t, hrun, ht, hsample, hrec⟩ :=
    run_sampleStarted (s := { s with inputs := pre ++ .engine d6 :: rest }) hb hc rfl hadm hanswers
  have hlast := step_of_scale hsample hrec.in_scale ht
  obtain ⟨hidle, hsdone, hdeselected⟩ := hsample.phaseScale hrec.in_scale
  obtain ⟨hraw, hvalue⟩ := hrec.end
  refine ⟨phaseScale { t with inputs := rest }, ?_, rfl, hidle, hsdone, hdeselected, hrec.rx,
    hrec.trace, hraw, hvalue⟩
  rw [run_succ_of_next _ hstart, run_add 1 hrun]
  exact run_succ_of_next 0 hlast

end Sys2Proof.Machine
end

section
/-! A rendering on its way to the host (42_formatter.md section 4): under every interleaving the host
reads the bytes in order, LAST on the last one, and all of them after enough rounds of an engine turn
and a read of FMT_DATA. -/

namespace Sys2Proof.Machine

/-- A run through listed turns whose requests are admitted uses up just these turns. -/
theorem exists_run_of_inputs {rest : List Input} (turns : List Input) : ∀ {s : State},
    s.inputs = turns ++ rest → InputsAdmitted turns →
    ∃ t : State, core.run turns.length s = .next t ∧ t.inputs = rest := by
  induction turns with
  | nil => exact fun hin _ => ⟨_, rfl, hin⟩
  | cons x turns ih =>
    intro s hin hadm
    obtain ⟨u, hstep, hu⟩ := exists_step_of_cons hin hadm.head
    obtain ⟨t, hrun, ht⟩ := ih hu hadm.tail
    exact ⟨t, (run_succ_of_next _ hstep).trans hrun, ht⟩

/-! ### Enough rounds -/

/-- The turns of rounds: each a turn of the engine and a request of the host. -/
def roundTurns (rounds : List (Byte × Request)) : List Input :=
  rounds.flatMap fun p => [.engine p.1, .host p.2]

theorem roundTurns_cons (p : Byte × Request) (rounds : List (Byte × Request)) :
    roundTurns (p :: rounds) = .engine p.1 :: .host p.2 :: roundTurns rounds := rfl

/-- The turns hold, as a sublist, a round for each of `n` bytes, whose request reads FMT_DATA; for a
byte that is held already the read alone will do. -/
def EnoughRounds (held : Bool) (n : Nat) (turns : List Input) : Prop :=
  ∃ rounds : List (Byte × Request), (∀ p ∈ rounds, p.2.instr = some .rdFmtData)
    ∧ ((n ≤ rounds.length ∧ (roundTurns rounds).Sublist turns)
      ∨ (held = true ∧ n ≤ rounds.length + 1
        ∧ ∃ r : Request, r.instr = some .rdFmtData ∧ (.host r :: roundTurns rounds).Sublist turns))

theorem EnoughRounds.eq_zero {held : Bool} {n : Nat} (h : EnoughRounds held n []) : n = 0 := by
  obtain ⟨rounds, -, ⟨hn, hsub⟩ | ⟨-, -, r, -, hsub⟩⟩ := h
  · cases rounds with
    | nil => exact Nat.le_zero.mp hn
    | cons p rounds => simp [roundTurns_cons] at hsub
  · simp at hsub

/-- A turn that keeps the rendering is at most the engine's turn of the first round. -/
theorem EnoughRounds.of_keepsRendering {x : Input} {s t : State} {n : Nat} {turns rest : List Input}
    (h : EnoughRounds s.fvalid n (x :: turns)) (hin : s.inputs = x :: rest)
    (hk : KeepsRendering x s t) :
    EnoughRounds t.fvalid n turns := by
  obtain ⟨rounds, hreads, ⟨hn, hsub⟩ | ⟨hv, hn, r, hr, hsub⟩⟩ := h
  · obtain hsub | ⟨more, heq, hsub⟩ := List.sublist_cons_iff.mp hsub
    · exact ⟨rounds, hreads, .inl ⟨hn, hsub⟩⟩
    · cases rounds with
      | nil => simp [roundTurns] at heq
      | cons p rounds =>
        rw [roundTurns_cons, List.cons.injEq] at heq
        obtain ⟨rfl, rfl⟩ := heq
        exact ⟨rounds, fun q hq => hreads q (List.mem_cons_of_mem p hq),
          .inr ⟨hk.held_by_engine ⟨p.1, rfl⟩, hn, p.2, hreads p List.mem_cons_self, hsub⟩⟩
  · obtain hsub | ⟨more, heq, hsub⟩ := List.sublist_cons_iff.mp hsub
    · exact ⟨rounds, hreads, .inr ⟨hk.held_stays hv, hn, r, hr, hsub⟩⟩
    · rw [List.cons.injEq] at heq
      obtain ⟨rfl, -⟩ := heq
      exact absurd ⟨by rw [readsFmtData_of_host hin hr]; rfl, hv⟩ hk.no_pop

/-- A read that delivers a byte is at most the read of the first round. -/
theorem EnoughRounds.of_delivery {r : Request} {held held' : Bool} {n : Nat} {turns : List Input}
    (h : EnoughRounds held (n + 1) (.host r :: turns)) : EnoughRounds held' n turns := by
  obtain ⟨rounds, hreads, ⟨hn, hsub⟩ | ⟨-, hn, r', -, hsub⟩⟩ := h
  · obtain hsub | ⟨more, heq, hsub⟩ := List.sublist_cons_iff.mp hsub
    · exact ⟨rounds, hreads, .inl ⟨by omega, hsub⟩⟩
    · cases rounds <;> simp [roundTurns] at heq
  · exact ⟨rounds, hreads, .inl ⟨by omega, hsub.tail⟩⟩

/-! ### Every interleaving -/

/-- From `s`, with a rendering in flight, by the turns to `t` the host has read the values `vs`: these
are the first undelivered bytes in order, LAST on the last one; the rest of them is still undelivered;
and nothing is left after enough rounds. -/
structure DeliversRendering (s : State) (turns : List Input) (vs : List Word) (t : State) : Prop where
  bytes : vs.map (fun v => v.extractLsb' 0 8)
    ++ (if vs.length < s.undelivered.length then t.undelivered else []) = s.undelivered
  last : ∀ (j : Nat) (v : Word), vs[j]? = some v → v.getLsbD 9 = decide (j + 1 = s.undelivered.length)
  unfinished : vs.length < s.undelivered.length → t.fact = true ∧ t.trace = s.trace
  enough : EnoughRounds s.fvalid s.undelivered.length turns → vs.length = s.undelivered.length

theorem deliversRendering_nil {s : State} (hs : RenderingInFlight s) : DeliversRendering s [] [] s where
  bytes := by simp [List.length_pos_iff.mpr hs.some_undelivered]
  last := by simp
  unfinished := fun _ => ⟨hs.active, rfl⟩
  enough := fun h => h.eq_zero.symm

theorem deliversRendering_of_all_delivered {s : State} (hs : s.undelivered = []) (turns : List Input)
    (t : State) : DeliversRendering s turns [] t where
  bytes := by simp [hs]
  last := by simp
  unfinished := fun h => by simp [hs] at h
  enough := fun _ => by simp [hs]

theorem DeliversRendering.of_keepsRendering {x : Input} {s s' t : State} {turns rest : List Input}
    {vs : List Word} (h : DeliversRendering s' turns vs t) (hin : s.inputs = x :: rest)
    (hk : KeepsRendering x s s') (htrace : s'.trace = s.trace) :
    DeliversRendering s (x :: turns) vs t := by
  obtain ⟨hbytes, hlast, hunfinished, henough⟩ := h
  rw [hk.undelivered] at hbytes hlast hunfinished henough
  rw [htrace] at hunfinished
  exact ⟨hbytes, hlast, hunfinished, fun he => henough (he.of_keepsRendering hin hk)⟩

theorem DeliversRendering.of_deliversByte {r : Request} {v : Word} {s s' t : State} {turns : List Input}
    {vs : List Word} (h : DeliversRendering s' turns vs t) (hd : DeliversByte v s s')
    (htrace : s'.trace = s.trace) : DeliversRendering s (.host r :: turns) (v :: vs) t := by
  obtain ⟨hbytes, hlast, hunfinished, henough⟩ := h
  have hu := hd.undelivered
  have hlen : s.undelivered.length = s'.undelivered.length + 1 := by rw [hu, List.length_cons]
  refine ⟨?_, fun j w hj => ?_, fun hlt => ?_, fun he => ?_⟩
  · simp only [List.map_cons, List.length_cons, Nat.add_lt_add_iff_right, List.cons_append, hbytes, hu]
  · rw [hlen]
    cases j with
    | zero =>
      obtain rfl : v = w := by simpa using hj
      rw [hd.last, decide_eq_decide, ← List.length_eq_zero_iff]
      omega
    | succ j =>
      rw [hlast j w (by simpa using hj)]
      simp
  · rw [← htrace]
    exact hunfinished (by simpa [hlen] using hlt)
  · rw [hlen] at he ⊢
    rw [List.length_cons, henough he.of_delivery]

/-- With a rendering in flight the host's reads deliver it, whatever the turns. -/
theorem run_rendering {rest : List Input} (turns : List Input) : ∀ {s : State}, RenderingInFlight s →
    s.inputs = turns ++ rest → InputsAdmitted turns →
    ∃ t : State, core.run turns.length s = .next t ∧ t.inputs = rest
      ∧ DeliversRendering s turns ((formattedWords turns.length s).take s.undelivered.length) t := by
  induction turns with
  | nil =>
    intro s hs hin _
    exact ⟨s, rfl, hin, by simpa using deliversRendering_nil hs⟩
  | cons x turns ih =>
    intro s hs hin hadm
    obtain ⟨u, hstep, hu⟩ := exists_step_of_cons hin hadm.head
    obtain ⟨-, htrace, hk | ⟨r, v, rfl, hd⟩⟩ := step_renderingInFlight hs hin hstep
    · obtain ⟨t, hrun, ht, hdel⟩ := ih hk.in_flight hu hadm.tail
      refine ⟨t, (run_succ_of_next _ hstep).trans hrun, ht, ?_⟩
      rw [List.length_cons, formattedWords_succ_of_next _ hstep, hk.no_word, List.nil_append,
        ← hk.undelivered]
      exact hdel.of_keepsRendering hin hk htrace
    · obtain ⟨t, hrun, ht, hdel⟩ : ∃ t : State, core.run turns.length u = .next t ∧ t.inputs = rest
          ∧ DeliversRendering u turns
            ((formattedWords turns.length u).take u.undelivered.length) t := by
        by_cases hnone : u.undelivered = []
        · obtain ⟨t, hrun, ht⟩ := exists_run_of_inputs turns hu hadm.tail
          exact ⟨t, hrun, ht, by simpa [hnone] using deliversRendering_of_all_delivered hnone turns t⟩
        · exact ih (hd.in_flight hnone) hu hadm.tail
      refine ⟨t, (run_succ_of_next _ hstep).trans hrun, ht, ?_⟩
      rw [List.length_cons, formattedWords_succ_of_next _ hstep, hd.word, hd.undelivered,
        List.length_cons, List.singleton_append, List.take_succ_cons]
      exact hdel.of_deliversByte hd htrace

/-- The state that an accepted FORMAT starts from. -/
def State.formatStarted (src : FmtSrc) (s : State) : State :=
  { s with fpend := render (formatInput src s), fact := true }

/-- All of the rendering is undelivered where FORMAT starts it with no byte held. -/
theorem undelivered_formatStarted {s : State} (src : FmtSrc) (hv : s.fvalid = false) :
    (s.formatStarted src).undelivered = render (formatInput src s) :=
  State.undelivered_of_not_fvalid hv

theorem renderingInFlight_formatStarted {s : State} (src : FmtSrc) (hb : s.busy = false)
    (hv : s.fvalid = false) : RenderingInFlight (s.formatStarted src) := by
  obtain ⟨hx, hq, -⟩ := (State.busy_eq_false_iff s).mp hb
  refine ⟨rfl, hx, hq, ?_, fun h => absurd (hv.symm.trans h) (by decide)⟩
  rw [undelivered_formatStarted src hv]
  exact render_ne_nil _

/-- The step of an accepted FORMAT, which reads nothing of FMT_DATA. -/
theorem step_of_format {s : State} {src : FmtSrc} {rest : List Input} (hb : s.busy = false)
    (hin : s.inputs = .host (.reg (encode (.format src))) :: rest) :
    step s = .next (State.formatStarted src { s with inputs := rest })
      ∧ formattedWord s (State.formatStarted src { s with inputs := rest }) = [] := by
  refine ⟨(step_of_encode rfl hin).trans
    (exec_format_of_not_busy (s := { s with inputs := rest }) src hb), ?_⟩
  have hi : (Request.reg (encode (.format src))).instr = some (.format src) :=
    instr_of_decode rfl (decodeOfEncode _ rfl)
  simp [formattedWord, readsFmtData_of_host hin hi]

/-! ### Rounds alone -/

/-- Which bytes of a rendering are marked LAST: the last one alone. -/
def lastMarks : List Byte → List Bool
  | [] => []
  | _ :: more => more.isEmpty :: lastMarks more

theorem lastMarks_eq {bytes : List Byte} (h : bytes ≠ []) :
    lastMarks bytes = List.replicate (bytes.length - 1) false ++ [true] := by
  induction bytes with
  | nil => exact absurd rfl h
  | cons b more ih =>
    cases more with
    | nil => rfl
    | cons b' more' =>
      rw [lastMarks, ih (by simp)]
      rfl

/-- The values that the host reads for the bytes of a rendering. -/
structure WordsOf (rendering : List Byte) (vs : List Word) : Prop where
  bytes : vs.map (fun v => v.extractLsb' 0 8) = rendering
  valid : ∀ v ∈ vs, v.getLsbD 8 = true
  last : vs.map (fun v => v.getLsbD 9) = lastMarks rendering

theorem wordsOf_nil : WordsOf [] [] := ⟨rfl, by simp, rfl⟩

/-- The value that the host reads while the byte `b` is held and `more` are pending. -/
theorem WordsOf.cons {b : Byte} {more : List Byte} {vs : List Word} (s : State) (h : WordsOf more vs) :
    WordsOf (b :: more) ((emitByte b more s).fmtDataWord :: vs) := by
  obtain ⟨hbytes, hvalid, hlast⟩ := h
  refine ⟨?_, ?_, ?_⟩
  · rw [List.map_cons, hbytes, State.fmtDataWord_byte]
    rfl
  · rw [List.forall_mem_cons, State.fmtDataWord_valid]
    exact ⟨rfl, hvalid⟩
  · rw [List.map_cons, hlast, State.fmtDataWord_last]
    rfl

/-- Nothing but a rendering is in flight, if any, and the engine has the next turn in it. -/
structure AwaitsEmit (s : State) : Prop where
  no_exchange : s.xfer = none
  no_sample : s.seq = .idle
  not_held : s.fvalid = false
  active : s.fact = !s.fpend.isEmpty

/-- The state after a round: the first pending byte has been read. -/
def State.afterRound (b : Byte) (more : List Byte) (rest : List Input) (s : State) : State :=
  { s with
    inputs := rest, fpend := more, fvalid := false, fdata := 0x00, flast := false,
    fact := !more.isEmpty, reads := s.reads ++ [(emitByte b more s).fmtDataWord] }

theorem step_emitByte {s : State} {b m : Byte} {more : List Byte} {rest : List Input}
    (hs : AwaitsEmit s) (hp : s.fpend = b :: more) (hin : s.inputs = .engine m :: rest) :
    step s = .next (emitByte b more { s with inputs := rest }) := by
  have hf : s.fact = true := by rw [hs.active, hp]; rfl
  have hemit : emitStep { s with inputs := rest } = some (emitByte b more { s with inputs := rest }) :=
    (emitStep_eq_some _ _).mpr ⟨hf, hs.not_held, b, more, hp, rfl⟩
  rw [step_of_engine hin]
  exact congrArg _ (engineTurn_of_emitStep (s := { s with inputs := rest }) m hs.no_exchange
    hs.no_sample hemit)

/-- The read of a byte just emitted pops it, and ends the rendering if it is the last one (R94). -/
theorem exec_rdFmtData_emitByte {s : State} {b : Byte} {more : List Byte} (hf : s.fact = true) :
    exec .rdFmtData (emitByte b more s) = .next (s.afterRound b more s.inputs) := by
  have hfact : (!more.isEmpty) = ((emitByte b more s).fact && !(emitByte b more s).flast) := by
    simp [emitByte, hf]
  rw [exec_rdFmtData, (emitByte b more s).popFmtData_of_fvalid rfl, State.afterRound, hfact]
  rfl

/-- A round of an engine turn and a read of FMT_DATA delivers the first pending byte. -/
theorem run_round {s : State} {b m : Byte} {more : List Byte} {rest : List Input} (hs : AwaitsEmit s)
    (hp : s.fpend = b :: more)
    (hin : s.inputs = .engine m :: .host (.reg (encode .rdFmtData)) :: rest) :
    core.run 2 s = .next (s.afterRound b more rest) := by
  have hf : s.fact = true := by rw [hs.active, hp]; rfl
  rw [run_succ_of_next 1 (step_emitByte hs hp hin)]
  refine run_succ_of_next 0 ((step_of_encode rfl rfl).trans ?_)
  exact exec_rdFmtData_emitByte (s := { s with inputs := rest }) hf

/-- Rounds alone deliver the pending bytes, and end with an idle block. -/
theorem run_rounds {rest : List Input} (misos : List Byte) : ∀ {s : State}, AwaitsEmit s →
    misos.length = s.fpend.length →
    s.inputs = (misos.flatMap fun m => [.engine m, .host (.reg (encode .rdFmtData))]) ++ rest →
    ∃ t : State, core.run (2 * misos.length) s = .next t
      ∧ t.busy = false ∧ t.fvalid = false ∧ t.inputs = rest ∧ t.trace = s.trace
      ∧ ∃ vs : List Word, t.reads = s.reads ++ vs ∧ WordsOf s.fpend vs := by
  induction misos with
  | nil =>
    intro s hs hlen hin
    have hp : s.fpend = [] := List.length_eq_zero_iff.mp hlen.symm
    have hf : s.fact = false := by rw [hs.active, hp]; rfl
    exact ⟨s, rfl, (State.busy_eq_false_iff s).mpr ⟨hs.no_exchange, hs.no_sample, hf⟩, hs.not_held, hin,
      rfl, [], by simp, hp ▸ wordsOf_nil⟩
  | cons m misos ih =>
    intro s hs hlen hin
    obtain ⟨b, more, hp⟩ := List.exists_cons_of_length_eq_add_one hlen.symm
    have hlen' : misos.length = more.length := by simpa [hp] using hlen
    have hround := run_round hs hp hin
    obtain ⟨t, hrun, hb, hv, ht, htrace, vs, hreads, hwords⟩ :=
      ih (s := s.afterRound b more (misos.flatMap _ ++ rest)) ⟨hs.no_exchange, hs.no_sample, rfl, rfl⟩
        hlen' rfl
    refine ⟨t, ?_, hb, hv, ht, htrace, _ :: vs, ?_, hp ▸ hwords.cons s⟩
    · rw [List.length_cons, Nat.mul_succ, Nat.add_comm, run_add _ hround]
      exact hrun
    · rw [hreads]
      exact List.append_assoc ..

/-! ### From FORMAT on -/

/-- After an accepted FORMAT every interleaving with admitted transactions delivers the rendering. -/
theorem run_format {s : State} {src : FmtSrc} {turns rest : List Input} (hb : s.busy = false)
    (hv : s.fvalid = false) (hin : s.inputs = .host (.reg (encode (.format src))) :: (turns ++ rest))
    (hadm : InputsAdmitted turns) :
    ∃ t : State, core.run (turns.length + 1) s = .next t ∧ t.inputs = rest
      ∧ DeliversRendering (State.formatStarted src { s with inputs := turns ++ rest }) turns
          ((formattedWords (turns.length + 1) s).take (render (formatInput src s)).length) t := by
  obtain ⟨hstep, hword⟩ := step_of_format hb hin
  have hundelivered := undelivered_formatStarted (s := { s with inputs := turns ++ rest }) src hv
  obtain ⟨t, hrun, ht, hdel⟩ := run_rendering turns
    (renderingInFlight_formatStarted (s := { s with inputs := turns ++ rest }) src hb hv) rfl hadm
  rw [hundelivered] at hdel
  refine ⟨t, (run_succ_of_next _ hstep).trans hrun, ht, ?_⟩
  rw [formattedWords_succ_of_next _ hstep, hword, List.nil_append]
  exact hdel

/-- After an accepted FORMAT as many rounds as its rendering has bytes deliver it, and nothing else. -/
theorem run_format_rounds {s : State} {src : FmtSrc} {misos : List Byte} {rest : List Input}
    (hb : s.busy = false) (hv : s.fvalid = false)
    (hlen : misos.length = (render (formatInput src s)).length)
    (hin : s.inputs = .host (.reg (encode (.format src)))
      :: (misos.flatMap fun m => [.engine m, .host (.reg (encode .rdFmtData))]) ++ rest) :
    ∃ t : State, core.run (2 * misos.length + 1) s = .next t
      ∧ t.busy = false ∧ t.fvalid = false ∧ t.inputs = rest ∧ t.trace = s.trace
      ∧ ∃ vs : List Word, t.reads = s.reads ++ vs ∧ WordsOf (render (formatInput src s)) vs := by
  obtain ⟨hx, hq, -⟩ := (State.busy_eq_false_iff s).mp hb
  obtain ⟨hstep, -⟩ := step_of_format hb hin
  have hactive : true = !(render (formatInput src s)).isEmpty := by
    simp [render_ne_nil]
  obtain ⟨t, hrun, hend⟩ := run_rounds misos (s := State.formatStarted src { s with
    inputs := (misos.flatMap fun m => [.engine m, .host (.reg (encode .rdFmtData))]) ++ rest })
    ⟨hx, hq, hv, hactive⟩ hlen rfl
  exact ⟨t, (run_succ_of_next _ hstep).trans hrun, hend⟩

theorem formatInput_eq_match (src : FmtSrc) (s : State) :
    formatInput src s = (match src with | .fmtIn => s.fmtIn | .value => s.value) := by
  cases src <;> rfl

/-- Settles O39: from FORMAT on, the steps keep the rendering or deliver its next byte; rounds alone
deliver it and end with an idle block. -/
theorem renderingReachesTheHostInOrder : Obligations.RenderingReachesTheHostInOrder := by
  constructor
  · intro s src turns rest hb hv hin hadm
    obtain ⟨t, hrun, ht, hbytes, hlast, hunfinished, henough⟩ := run_format hb hv hin hadm
    have hundelivered := undelivered_formatStarted (s := { s with inputs := turns ++ rest }) src hv
    rw [hundelivered] at hbytes hlast hunfinished henough
    exact ⟨t, _, _, hrun, ht, congrArg render (formatInput_eq_match src s), rfl, hbytes, hlast,
      hunfinished, fun rounds hreads hlen hsub => henough ⟨rounds, hreads, .inl ⟨hlen.ge, hsub⟩⟩⟩
  · intro s src misos rest hb hv hlen hin
    have hinput := formatInput_eq_match src s
    have hlen' : misos.length = (render (formatInput src s)).length :=
      hlen.trans (congrArg (fun x => (render x).length) hinput.symm)
    obtain ⟨t, hrun, hidle, hempty, ht, htrace, vs, hreads, hbytes, hvalid, hlast⟩ :=
      run_format_rounds hb hv hlen' hin
    refine ⟨t, hrun, hidle, hempty, ht, htrace, vs, hreads,
      hbytes.trans (congrArg render hinput), hvalid, ?_⟩
    rw [hlast, lastMarks_eq (render_ne_nil _), hlen']

end Sys2Proof.Machine
end

section
/-! The expansion of XFER (30_encoding.md R62): the start of the exchange, polls of STATUS until TC is
set, and the read of RXDATA. -/

namespace Sys2Proof.Machine

/-! ### Host variables and statements -/

theorem getVar_setVar_same (h : Nat) (v : Word) (vars : List (Nat × Word)) :
    getVar h (setVar h v vars) = some v := by
  induction vars with
  | nil => simp [setVar, getVar]
  | cons p rest ih =>
    obtain ⟨k, w⟩ := p
    unfold setVar
    split_ifs with hlt heq
    · simp [getVar]
    · simp [getVar]
    · simp [getVar, heq, ih]

/-- A read's destination receives the value read. -/
theorem receive_returned (h : Nat) (v : Word) (s : State) (vars : List (Nat × Word)) :
    receive (some h) (s.returned v) vars = setVar h v vars := by
  simp [receive]

section
variable {d : Driver}

/-- The host's turn at a transaction performs it and goes on. -/
theorem hostStep_of_access {i : Instr} {dst : Option Nat} {s : State} (hhalted : d.halted = false)
    (hstmt : d.prog[d.pc]? = some (.access (.reg (encode i)) dst)) (hi : WellFormed i = true)
    (he : exec i d.block = .next s) :
    d.hostStep = .ok { d with block := s, vars := receive dst s d.vars, pc := d.pc + 1 } := by
  have hturn : hostTurn (.reg (encode i)) d.block = .next s :=
    (hostTurn_of_decode d.block rfl (decodeOfEncode i hi)).trans he
  simp [Driver.hostStep, hhalted, hstmt, Driver.doAccess, hturn]

/-- The host's turn at a branch goes on at the target or at the next statement. -/
theorem hostStep_of_bitz {h target : Nat} {mask v : Word} (hhalted : d.halted = false)
    (hstmt : d.prog[d.pc]? = some (.bitz h mask target)) (hv : getVar h d.vars = some v) :
    d.hostStep = .ok { d with pc := if v &&& mask == 0 then target else d.pc + 1 } := by
  simp [Driver.hostStep, hhalted, hstmt, Driver.branch, hv]

theorem Driver.run_cons_of_ok {d' : Driver} {u : Turn} (us : List Turn) (h : d.turn u = .ok d') :
    d.run (u :: us) = d'.run us := by
  rw [Driver.run, h]

end

theorem Driver.run_append_of_ok {us : List Turn} (vs : List Turn) : ∀ {d d' : Driver},
    d.run us = .ok d' → d.run (us ++ vs) = d'.run vs := by
  induction us with
  | nil =>
    intro d d' h
    cases h
    rfl
  | cons u us ih =>
    intro d d' h
    cases hu : d.turn u with
    | error e => simp [Driver.run, hu] at h
    | ok d₁ =>
      rw [Driver.run_cons_of_ok us hu] at h
      rw [List.cons_append, Driver.run_cons_of_ok _ hu]
      exact ih h

/-! ### A poll of TC -/

/-- The branch of WAIT_TC tests TC (R21, R62). -/
theorem statusWord_and_one (s : State) : (s.statusWord &&& 0x001 == 0) = !s.tc := by
  have htc : s.statusWord.getLsbD 0 = s.tc := s.getLsbD_statusWord 0
  have hand : s.statusWord &&& 1 = BitVec.setWidth 32 (BitVec.ofBool (s.statusWord.getLsbD 0)) :=
    BitVec.and_one_eq_setWidth_ofBool_getLsbD
  rw [hand, htc]
  cases s.tc <;> rfl

/-- The driver after the read of STATUS of a WAIT_TC that stands at index 1. -/
def Driver.statusRead (t : Nat) (d : Driver) : Driver :=
  { d with
    block := State.returned d.block.statusWord { d.block with tc := false }
    vars := setVar t d.block.statusWord d.vars
    pc := 2 }

/-- The driver after a poll of TC: it has left the loop exactly when TC was set. -/
def Driver.polled (t : Nat) (d : Driver) : Driver :=
  { d.statusRead t with pc := if d.block.tc then 3 else 1 }

section
variable {d : Driver} {t h : Nat} {b : Byte} {prog : List HostStmt}
  (hprog : d.prog = xferByte 0 t b h ++ prog) (hhalted : d.halted = false)
include hprog hhalted

theorem turn_statusRead (hpc : d.pc = 1) : d.turn .host = .ok (d.statusRead t) := by
  have hstmt : d.prog[d.pc]? = some (.access (.reg (encode .rdStatus)) (some t)) := by
    rw [hpc, hprog]
    rfl
  rw [Driver.turn, hostStep_of_access hhalted hstmt rfl rfl, receive_returned, hpc]
  rfl

theorem turn_polled : (d.statusRead t).turn .host = .ok (d.polled t) := by
  have hstmt : (d.statusRead t).prog[2]? = some (.bitz t 0x001 1) := by
    rw [show (d.statusRead t).prog = _ from hprog]
    rfl
  have hbranch := hostStep_of_bitz (d := d.statusRead t) hhalted hstmt (getVar_setVar_same t _ _)
  rw [statusWord_and_one] at hbranch
  refine hbranch.trans ?_
  rw [Driver.polled]
  cases d.block.tc <;> rfl

/-- A poll reads STATUS, which clears TC, and branches on what TC was. -/
theorem run_poll (hpc : d.pc = 1) : d.run [.host, .host] = .ok (d.polled t) := by
  rw [Driver.run_cons_of_ok _ (turn_statusRead hprog hhalted hpc),
    Driver.run_cons_of_ok _ (turn_polled hprog hhalted), Driver.run]

end

/-! ### The expansion of XFER -/

/-- The byte of `TX b` is `b` (R22, R61). -/
theorem txByte_setWidth (b : Byte) : txByte (b.setWidth 32) = b := by
  apply BitVec.eq_of_toNat_eq
  have hlt := b.isLt
  simp [txByte]
  omega

/-- The host runs the program and stands at the statement `pc`; no sample and no rendering is in
flight. -/
structure InXfer (prog : List HostStmt) (pc : Nat) (xfer : Option Byte) (tc : Bool)
    (trace : List SpiEvent) (d : Driver) : Prop where
  prog : d.prog = prog
  running : d.halted = false
  pc : d.pc = pc
  alone : d.block.seq = .idle ∧ d.block.fact = false
  xfer : d.block.xfer = xfer
  tc : d.block.tc = tc
  trace : d.block.trace = trace

section
variable {t h : Nat} {b : Byte} {rest : List HostStmt} {trace : List SpiEvent}

/-- The start of the exchange, on an idle block. -/
theorem turn_tx {d : Driver} (hprog : d.prog = xferByte 0 t b h ++ rest) (hpc : d.pc = 0)
    (hhalted : d.halted = false) (hb : d.block.busy = false) :
    ∃ d', d.turn .host = .ok d'
      ∧ InXfer (xferByte 0 t b h ++ rest) 1 (some b) false d.block.trace d' := by
  obtain ⟨-, hq, hf⟩ := (State.busy_eq_false_iff _).mp hb
  have hstmt : d.prog[d.pc]? = some (.access (.reg (encode (.tx (b.setWidth 32)))) none) := by
    rw [hpc, hprog]
    rfl
  exact ⟨_, hostStep_of_access hhalted hstmt rfl (unlessBusy_of_not_busy hb _), hprog, hhalted,
    congrArg (· + 1) hpc, ⟨hq, hf⟩, congrArg some (txByte_setWidth b), rfl, rfl⟩

/-- A poll goes on to the read of RXDATA exactly when TC was set. -/
theorem InXfer.poll {d : Driver} {xfer : Option Byte} {tc : Bool}
    (hd : InXfer (xferByte 0 t b h ++ rest) 1 xfer tc trace d) :
    d.run [.host, .host] = .ok (d.polled t)
      ∧ InXfer (xferByte 0 t b h ++ rest) (if tc then 3 else 1) xfer false trace (d.polled t) :=
  ⟨run_poll hd.prog hd.running hd.pc, hd.prog, hd.running, by rw [← hd.tc]; rfl, hd.alone, hd.xfer, rfl,
    hd.trace⟩

/-- While the exchange is in flight any number of polls goes on waiting. -/
theorem run_polls {xfer : Option Byte} (n : Nat) : ∀ {d : Driver},
    InXfer (xferByte 0 t b h ++ rest) 1 xfer false trace d →
    ∃ d', d.run (List.replicate n [Turn.host, .host]).flatten = .ok d'
      ∧ InXfer (xferByte 0 t b h ++ rest) 1 xfer false trace d' := by
  induction n with
  | zero => exact fun hd => ⟨_, rfl, hd⟩
  | succ n ih =>
    intro d hd
    obtain ⟨hpoll, hpolled⟩ := hd.poll
    obtain ⟨d', hrun, hd'⟩ := ih hpolled
    refine ⟨d', ?_, hd'⟩
    rw [List.replicate_succ, List.flatten_cons, Driver.run_append_of_ok _ hpoll]
    exact hrun

/-- The engine's turn completes the exchange (R70). -/
theorem InXfer.engine {d : Driver} {prog : List HostStmt} {pc : Nat} (miso : Byte)
    (hd : InXfer prog pc (some b) false trace d) :
    ∃ d', d.turn (.engine miso) = .ok d' ∧ InXfer prog pc none true (trace ++ [.xchg b miso]) d'
      ∧ d'.block.rx = miso := by
  refine ⟨{ d with block := xdone b miso d.block }, ?_,
    ⟨hd.prog, hd.running, hd.pc, hd.alone, rfl, rfl, by rw [← hd.trace]; rfl⟩, rfl⟩
  rw [Driver.turn, engineTurn_of_xfer miso hd.xfer]

/-- The read of RXDATA ends the expansion (R67). -/
theorem InXfer.readRxdata {d : Driver} {xfer : Option Byte} {tc : Bool}
    (hd : InXfer (xferByte 0 t b h ++ rest) 3 xfer tc trace d) :
    ∃ d', d.turn .host = .ok d' ∧ InXfer (xferByte 0 t b h ++ rest) 4 xfer tc trace d'
      ∧ getVar h d'.vars = some d.block.rxWord := by
  have hstmt : d.prog[d.pc]? = some (.access (.reg (encode .rdRxdata)) (some h)) := by
    rw [hd.pc, hd.prog]
    rfl
  refine ⟨_, hostStep_of_access hd.running hstmt rfl rfl,
    ⟨hd.prog, hd.running, congrArg (· + 1) hd.pc, hd.alone, hd.xfer, hd.tc, hd.trace⟩, ?_⟩
  rw [receive_returned, getVar_setVar_same]

theorem InXfer.not_busy {d : Driver} {prog : List HostStmt} {pc : Nat} {tc : Bool}
    (hd : InXfer prog pc none tc trace d) : d.block.busy = false :=
  (State.busy_eq_false_iff _).mpr ⟨hd.xfer, hd.alone⟩

end

/-- Settles O60, statement by statement: the start, the polls before the engine's turn, that turn, the
poll that sees TC, and the read. -/
theorem xferReturnsTheAnswer : Obligations.XferReturnsTheAnswer := by
  intro n t h b miso rest d hprog hpc hhalted hb
  obtain ⟨d1, hstart, hd1⟩ := turn_tx hprog hpc hhalted hb
  obtain ⟨d2, hpolls, hd2⟩ := run_polls n hd1
  obtain ⟨d3, hengine, hd3, hrx⟩ := hd2.engine miso
  obtain ⟨hpoll, hd4⟩ := hd3.poll
  obtain ⟨d5, hread, hd5, hvar⟩ := hd4.readRxdata
  refine ⟨d5, ?_, ?_, hd5.pc, hd5.trace, hd5.not_busy, hd5.tc⟩
  · rw [List.cons_append, Driver.run_cons_of_ok _ hstart, Driver.run_append_of_ok _ hpolls,
      Driver.run_cons_of_ok _ hengine]
    exact (Driver.run_append_of_ok [.host] hpoll).trans (Driver.run_cons_of_ok [] hread)
  · rw [hvar, ← hrx]
    rfl

end Sys2Proof.Machine
end
